-- ==== Sys2Proof/Word.lean ====
section
/-! DEFINITION. The word types of the KT36 (spec 00, Conventions; 03 R50; 11 R180, R193). -/

namespace Sys2Proof

/-- A byte of a link transaction, of the display RAM or of a frame. -/
abbrev Byte := BitVec 8

/-- A 16-bit word of pattern memory or of the EEPROM (R50, R191). -/
abbrev Word := BitVec 16

/-- A rack time: the 32-bit count of milliseconds (R193). -/
abbrev RackTime := BitVec 32

/-- A word address of pattern memory, 0 to 16383 (R50). -/
abbrev PatternAddr := BitVec 14

end Sys2Proof
end

