-- ==== Sys2Proof/Config.lean ====
section
/-! DEFINITION. The fixed numbers of the KT36 (spec 00, Numbers at a glance) and the free values of the
model: what the spec leaves to an order it does not give, or to the world outside the block. -/

namespace Sys2Proof
namespace Config

/-- FREE VALUE: which of several events or seats is taken first where the spec says "either may be taken
first" or "in any order" and no queue order decides (log entries 2 and 11). -/
opaque freeChoice : Nat → Nat

/-- FREE VALUE: the voltage of the i-th measurement input of the rack, in volts, from one microsecond on (log
entry 9). -/
opaque freeVoltage : Nat → Nat → Rat

/-- FREE VALUE: whether the station holds chip select of port A (0) or B (1) active from one microsecond on (log
entry 19). -/
opaque freeSelect : Nat → Nat → Bool

/-- FREE VALUE: whether the unit acknowledged a transmission the model completes by itself (log entry 9). -/
opaque freeAck : Nat → Bool

/-- FREE VALUE: whether the EEPROM accepted the i-th word of a store the model ends by itself (log entry 9). -/
opaque freeAccepted : Nat → Nat → Bool

/-- FREE VALUE: whether the EEPROM answered every word of a start-up load the model ends by itself (log entry 9). -/
opaque freeEepromAnswers : Nat → Bool

/-- Step queue depth of a seat (R24). -/
def queueDepth : Nat := 24
/-- Result list length of a seat (R166). -/
def resultDepth : Nat := 64
/-- Capture queue length of a seat (R132). -/
def captureDepth : Nat := 16
/-- Notice queue length of a port (R175). -/
def noticeDepth : Nat := 32
/-- Sensor and key debounce in ms (R3, R158). -/
def debounceMs : Nat := 20
/-- Length of the start-up load in ms (R190, R192). -/
def loadMs : Nat := 40
/-- Length of a calibration store in ms (R106). -/
def storeMs : Nat := 10
/-- Length of a conversion in microseconds (R103, R113). -/
def conversionUs : Nat := 20
/-- Transmission time of a frame without data, in microseconds (R97). -/
def frameBaseUs : Nat := 100
/-- Added transmission time of each data byte, in microseconds (R97). -/
def frameByteUs : Nat := 16
/-- Default clamp and unclamp timeout in ms (R7, R191). -/
def defaultTimeout : Nat := 1500
/-- The signature value of EEPROM word 0 (R191). -/
def signature : Word := 0x5A36#16

end Config
end Sys2Proof
end

