-- ==== Sys2Proof/Syntax.lean ====
section
/-! DEFINITION. The commands of the KT36: one constructor per row of spec/opcode_table.json.

A link command carries its port and its parameter bytes as the link delivers them (R176); how the bytes
spell the operands (R180 to R182) is read in Machine/Operands.lean, and a wrong length or range is the
command's BAD_PARAM answer. An event carries what happened at the pins or which record it reaches. -/

namespace Sys2Proof

/-- The two station ports (R175). -/
inductive Port where
  | a
  | b
  deriving DecidableEq, Repr

/-- The three sensor inputs of a seat (R3). -/
inductive Sensor where
  | present
  | confirm
  | trip
  deriving DecidableEq, Repr

/-- The two answer keys of a seat, and the answer to a prompt (R156, R158). -/
inductive YesNo where
  | yes
  | no
  deriving DecidableEq, Repr

/-- The nine keys (R158). -/
inductive Key where
  | answer (k : Fin 4) (a : YesNo)
  | stop
  deriving DecidableEq, Repr

/-- Which of the three words of a calibration store the EEPROM has accepted (R107). -/
structure StoreAccepted where
  signature : Bool
  offset : Bool
  gain : Bool
  deriving DecidableEq, Repr

/-- The commands and events of the KT36. -/
inductive Instr where
  /-- STATUS (R188): Returns the load state, configuration source, port, overflow flag, queue count, ATTN, threshold, levels and rack time, then clears the overflow flag; taken even during the load. -/
  | status (p : Port) (ps : List Byte)
  /-- READ_NOTICE (R185): Removes and returns the oldest notice of the caller's queue, with the count left, and re-judges ATTN. -/
  | readNotice (p : Port) (ps : List Byte)
  /-- SET_NOTICE_LEVEL (R187): Sets the caller's level for one notice kind for later postings. -/
  | setNoticeLevel (p : Port) (ps : List Byte)
  /-- SET_THRESHOLD (R187): Sets the caller's threshold and re-judges ATTN over the queued notices. -/
  | setThreshold (p : Port) (ps : List Byte)
  /-- PORT_RESET (R189): Resets the caller's own port: empties the queue, resets levels and cursor, resets its seats and drops its region grants. -/
  | portReset (p : Port) (ps : List Byte)
  /-- PORT_RESET_INPUT (R189): A fall of a port's reset input takes a port reset with the same stages as PORT_RESET. -/
  | portResetInput (p : Port)
  /-- UNKNOWN_COMMAND (R178): A link transaction with a command code not in the table is answered UNKNOWN with no effect. -/
  | unknownCommand (p : Port) (code : Byte) (ps : List Byte)
  /-- LINK_TRANSACTION_DISCARDED (R177): A chip-select period that ends before the last parameter byte is discarded without effect. -/
  | linkTransactionDiscarded (p : Port) (bytes : List Byte)
  /-- CLAIM_SEAT (R11): Makes the caller the owner of an unowned or already owned seat, or refuses it IN_USE. -/
  | claimSeat (p : Port) (ps : List Byte)
  /-- RELEASE_SEAT (R12): The owner gives up a seat outside TESTING, leaving state and outputs unchanged. -/
  | releaseSeat (p : Port) (ps : List Byte)
  /-- CLAMP (R14): Closes the clamp on a LOADED seat without pending results and enters CLAMPING, or CLAMPED at once when the confirm is already closed. -/
  | clamp (p : Port) (ps : List Byte)
  /-- UNCLAMP (R15): Opens the clamp of a CLAMPED seat, sets the unclamp deadline and enters UNCLAMPING. -/
  | unclamp (p : Port) (ps : List Byte)
  /-- POWER_ON (R16): Switches the unit supply on for a CLAMPED seat with trip clear and enters POWERED. -/
  | powerOn (p : Port) (ps : List Byte)
  /-- POWER_OFF (R16): Switches the supply off from POWERED or HOLD, rests the outputs and enters CLAMPED. -/
  | powerOff (p : Port) (ps : List Byte)
  /-- START (R17): Moves a POWERED seat with queued steps to TESTING, rests its outputs and considers the head step. -/
  | start (p : Port) (ps : List Byte)
  /-- STOP_SEAT (R18): Aborts a TESTING seat with cause STOP_SEAT and sends it to HOLD with its queue kept. -/
  | stopSeat (p : Port) (ps : List Byte)
  /-- RESUME (R19): Moves a HOLD seat with queued steps back to TESTING and considers its head step. -/
  | resume (p : Port) (ps : List Byte)
  /-- CLEAR_FAULT (R20): Removes the fault cause and chooses VACANT, CLAMPED, UNCLAMPING or LOADED from the levels and the actuator. -/
  | clearFault (p : Port) (ps : List Byte)
  /-- READ_SEAT (R21): Returns the seat record fields with no effect. -/
  | readSeat (p : Port) (ps : List Byte)
  /-- QUEUE_STEP (R27): Checks a step record and appends it to the tail of the seat's step queue. -/
  | queueStep (p : Port) (ps : List Byte)
  /-- FLUSH_QUEUE (R42): Empties the seat's queue; a waiting seat leaves the wait list and returns to POWERED. -/
  | flushQueue (p : Port) (ps : List Byte)
  /-- ABORT_STEP (R43): Aborts the running step with the named id with cause STATION_ABORT. -/
  | abortStep (p : Port) (ps : List Byte)
  /-- READ_STEP_STATE (R49): Returns the queue, wait-list position, need, kept channel and running-step details of a seat. -/
  | readStepState (p : Port) (ps : List Byte)
  /-- READ_SNAPSHOT (R48): Returns the seat's abort snapshot or its absence with no effect. -/
  | readSnapshot (p : Port) (ps : List Byte)
  /-- TAKE_REGION (R52): Gives the caller a grant on a free region, or leaves an entry it already holds. -/
  | takeRegion (p : Port) (ps : List Byte)
  /-- SHARE_REGION (R53): Turns a region held by the caller alone into BOTH. -/
  | shareRegion (p : Port) (ps : List Byte)
  /-- DROP_REGION (R54): Gives up the caller's grant on a region, leaving NONE or the other port's letter. -/
  | dropRegion (p : Port) (ps : List Byte)
  /-- WRITE_PATTERN (R55): Writes 1 to 64 words into pattern memory as one event when every region touched is granted to the caller. -/
  | writePattern (p : Port) (ps : List Byte)
  /-- READ_PATTERN (R56): Returns 1 to 64 words of pattern memory with no grant needed. -/
  | readPattern (p : Port) (ps : List Byte)
  /-- READ_REGIONS (R51): Returns the 32 region grant entries. -/
  | readRegions (p : Port) (ps : List Byte)
  /-- WRITE_PROGRAM (R63): Writes a stimulus program into an entry whose use count is 0. -/
  | writeProgram (p : Port) (ps : List Byte)
  /-- ERASE_PROGRAM (R64): Empties a program entry whose use count is 0. -/
  | eraseProgram (p : Port) (ps : List Byte)
  /-- READ_PROGRAM (R64): Returns a program entry, its written flag and its use count. -/
  | readProgram (p : Port) (ps : List Byte)
  /-- SET_SHADOW (R80): Sets or clears the shadow start address of a non-FREE channel of the caller's seat. -/
  | setShadow (p : Port) (ps : List Byte)
  /-- READ_CHANNEL (R84): Returns a channel record with no effect. -/
  | readChannel (p : Port) (ps : List Byte)
  /-- SET_OUTPUT (R91): Writes a word to an undriven analog, frequency or digital output of a seat in POWERED, TESTING or HOLD and stores it as last set. -/
  | setOutput (p : Port) (ps : List Byte)
  /-- READ_OUTPUTS (R93): Returns the live values, drivers and last-set values of a seat's outputs and the channels targeting its frame slots. -/
  | readOutputs (p : Port) (ps : List Byte)
  /-- SET_FRAME_SLOT (R95): Replaces a frame slot's settings and payload and, in TESTING, restarts its schedule. -/
  | setFrameSlot (p : Port) (ps : List Byte)
  /-- READ_FRAME_SLOT (R101): Returns a frame slot's settings, payload, outcome, pending flag, schedule and channels. -/
  | readFrameSlot (p : Port) (ps : List Byte)
  /-- SET_CALIBRATION (R105): Sets the offset and gain of a calibration entry with source SET. -/
  | setCalibration (p : Port) (ps : List Byte)
  /-- STORE_CALIBRATION (R106): Starts a 10 ms store of one calibration entry and the signature to the EEPROM, or is refused BUSY. -/
  | storeCalibration (p : Port) (ps : List Byte)
  /-- READ_CALIBRATION (R108): Returns a calibration entry and the state of any store in progress. -/
  | readCalibration (p : Port) (ps : List Byte)
  /-- READ_SLOT (R115): Returns a measurement slot record and the converter state. -/
  | readSlot (p : Port) (ps : List Byte)
  /-- WRITE_LIMIT (R118): Writes a limit record into an entry whose use count is 0. -/
  | writeLimit (p : Port) (ps : List Byte)
  /-- ERASE_LIMIT (R119): Empties a limit entry whose use count is 0. -/
  | eraseLimit (p : Port) (ps : List Byte)
  /-- READ_LIMIT (R119): Returns a limit entry with its inner bounds and use count. -/
  | readLimit (p : Port) (ps : List Byte)
  /-- SET_FILTER (R133): Replaces the enable, identifier and mask of one receive filter of a seat. -/
  | setFilter (p : Port) (ps : List Byte)
  /-- SET_ACCEPT_LONG (R134): Sets whether frames longer than 8 bytes may be stored for a seat. -/
  | setAcceptLong (p : Port) (ps : List Byte)
  /-- READ_CAPTURE (R136): Removes and returns the oldest capture record of a seat with the count left. -/
  | readCapture (p : Port) (ps : List Byte)
  /-- CAPTURE_STATUS (R137): Returns the capture unit state and then clears its overflow flag. -/
  | captureStatus (p : Port) (ps : List Byte)
  /-- FLUSH_CAPTURE (R138): Removes every record from a seat's capture queue. -/
  | flushCapture (p : Port) (ps : List Byte)
  /-- SET_CURSOR (R149): Sets the caller's cursor page and column outside RMW. -/
  | setCursor (p : Port) (ps : List Byte)
  /-- WRITE_PANEL (R150): Writes bytes into display RAM at the caller's cursor when the pane is not held and not owned by the other port. -/
  | writePanel (p : Port) (ps : List Byte)
  /-- READ_PANEL (R152): Returns bytes through the caller's latch, loading it from display RAM and advancing the column outside RMW. -/
  | readPanel (p : Port) (ps : List Byte)
  /-- RMW_BEGIN (R153): Saves the cursor column and sets the RMW flag. -/
  | rmwBegin (p : Port) (ps : List Byte)
  /-- RMW_END (R153): Restores the saved column and clears the RMW flag. -/
  | rmwEnd (p : Port) (ps : List Byte)
  /-- PANEL_ON (R162): Sets the display ON, leaving the saver if it was entered. -/
  | panelOn (p : Port) (ps : List Byte)
  /-- PANEL_OFF (R162): Sets the display OFF, entering the saver when all-points is FORCED. -/
  | panelOff (p : Port) (ps : List Byte)
  /-- ALL_POINTS_NORMAL (R162): Sets all-points NORMAL, leaving the saver if it was entered. -/
  | allPointsNormal (p : Port) (ps : List Byte)
  /-- ALL_POINTS_FORCED (R162): Sets all-points FORCED, entering the saver when the display is OFF. -/
  | allPointsForced (p : Port) (ps : List Byte)
  /-- SET_LAMP (R161): Sets a seat lamp's set mode. -/
  | setLamp (p : Port) (ps : List Byte)
  /-- READ_PANEL_STATE (R164): Returns panel modes, saver, lamps, prompts, key levels and the caller's cursor. -/
  | readPanelState (p : Port) (ps : List Byte)
  /-- READ_RESULT (R170): Returns one result entry by index with the entry count, with no effect. -/
  | readResult (p : Port) (ps : List Byte)
  /-- READ_SUMMARY (R171): Returns the summary, entry count, truncated flag, serial and pending state of a seat. -/
  | readSummary (p : Port) (ps : List Byte)
  /-- CLEAR_RESULTS (R172): Empties the result list, resets summary and truncated flag and makes the serial absent, outside TESTING. -/
  | clearResults (p : Port) (ps : List Byte)
  /-- SET_SERIAL (R173): Sets the unit serial unless a present serial stands beside recorded results. -/
  | setSerial (p : Port) (ps : List Byte)
  /-- SENSOR_RAW_CHANGE (R3): A raw change of a seat sensor input restarts or cancels its 20 ms debounce count. -/
  | sensorRawChange (k : Fin 4) (x : Sensor) (active : Bool)
  /-- PRESENT_LEVEL_CHANGE (R4): The debounced unit-present level changes after 20 ms of stable raw level and acts on the seat state. -/
  | presentLevelChange (k : Fin 4)
  /-- CONFIRM_LEVEL_CHANGE (R5): The debounced clamp-confirm level changes and ends a clamp or unclamp or causes a clamp loss. -/
  | confirmLevelChange (k : Fin 4)
  /-- TRIP_LEVEL_CHANGE (R6): The debounced supply-trip level changes and faults a powered seat with SUPPLY_TRIP. -/
  | tripLevelChange (k : Fin 4)
  /-- CLAMP_TIMER_EXPIRY (R7): The clamp timeout expires in CLAMPING, opening the actuator and faulting the seat with CLAMP_TIMEOUT. -/
  | clampTimerExpiry (k : Fin 4)
  /-- UNCLAMP_TIMER_EXPIRY (R7): The unclamp timeout expires in UNCLAMPING and faults the seat with UNCLAMP_TIMEOUT. -/
  | unclampTimerExpiry (k : Fin 4)
  /-- WINDOW_EXPIRY (R37): The rack time reaches the window deadline; open parts are judged and the step ends. -/
  | windowExpiry (k : Fin 4)
  /-- TIMER_TRIGGER (R71): The rack time reaches a TIMER channel's next trigger, which asks for a block and advances by the period. -/
  | timerTrigger (c : Fin 8)
  /-- CHANNEL_MOVE (R74): One move checks the region grant, reads a word, delivers it, counts, advances, may mark and may end the transaction. -/
  | channelMove (c : Fin 8)
  /-- FRAME_SLOT_DUE (R96): The rack time reaches a slot's next due; the slot becomes pending or loses the due and the arbiter runs. -/
  | frameSlotDue (k : Fin 4) (f : Fin 8)
  /-- TRANSMISSION_COMPLETE (R98): Records ACK or NO_ACK for the slot, makes the link idle and runs the arbiter. -/
  | transmissionComplete (k : Fin 4) (ack : Bool)
  /-- FRAME_RECEIVED (R135): A correctly received frame is examined against the expectation and stored by the filters. -/
  | frameReceived (k : Fin 4) (ident : BitVec 11) (data : List Byte)
  /-- GATE_TIME_REACHED (R111): The rack time reaches a DELAY gate time and the slot starts sampling. -/
  | gateTimeReached (m : Fin 6)
  /-- SLOT_DUE (R112): The rack time reaches a sampling slot's next due; its due flag is set and the converter arbiter runs. -/
  | slotDue (m : Fin 6)
  /-- CONVERSION_COMPLETE (R114): Passes the raw code to the verdict engine for a slot still sampling under its binding, or discards it. -/
  | conversionComplete (m : Fin 6)
  /-- STORE_END (R107): A calibration store ends 10 ms after its command as STORED or FAILED and posts STORE_DONE. -/
  | storeEnd (acc : StoreAccepted)
  /-- KEY_RAW_CHANGE (R158): A raw change of a key input restarts or cancels its 20 ms debounce count. -/
  | keyRawChange (key : Key) (active : Bool)
  /-- KEY_PRESS (R158): A debounced YES or NO key press answers the seat's open prompt or posts a KEY notice. -/
  | keyPress (k : Fin 4) (key : YesNo)
  /-- STOP_KEY_PRESS (R159): A debounced STOP key press aborts every seat in TESTING with cause STOP_KEY. -/
  | stopKeyPress
  /-- COLD_RESET (R190): Power-on or a fall of the rack reset puts every block at its reset values and starts the 40 ms load. -/
  | coldReset (acc : StoreAccepted)
  /-- LOAD_END (R192): At rack time 40 the loader enters READY, seats take states from their levels and CONFIG is posted to both ports. -/
  | loadEnd (answers : Bool)
  /-- RACK_RESET_RELEASE (R190): At the release of the rack reset input, or the end of power-on, the loader enters LOADING, rack time starts from 0 and the debounce counts start. -/
  | rackResetRelease
  /-- KEY_RELEASE (R158): A YES, NO or STOP key's debounced level becomes inactive after 20 ms of stable raw level and is recorded. -/
  | keyRelease (key : Key)
  /-- PORT_RESET_RELEASE (R189): A port's reset input returns inactive, and from then on the port again takes link transactions on a fall of chip select. -/
  | portResetRelease (p : Port)
  deriving DecidableEq, Repr

end Sys2Proof
end

