-- ==== Sys2Proof/Decode.lean ====
section
/-! DEFINITION. How the link spells commands (R176 to R179), and the host's decodeTableWord.

spec/opcode_table.json gives no row any bits, so decodeTableWord answers none for every word. The link's
own decoding is here: the command code table of R179 and the reading of one link transaction. -/

namespace Sys2Proof

/-- The command a known code stands for (R179); none for every code not in the table. -/
def commandOfCode? (code : Byte) (p : Port) (ps : List Byte) : Option Instr :=
  match code.toNat with
  | 0x00 => some (.status p ps)
  | 0x01 => some (.readNotice p ps)
  | 0x02 => some (.setNoticeLevel p ps)
  | 0x03 => some (.setThreshold p ps)
  | 0x04 => some (.portReset p ps)
  | 0x10 => some (.claimSeat p ps)
  | 0x11 => some (.releaseSeat p ps)
  | 0x12 => some (.clamp p ps)
  | 0x13 => some (.unclamp p ps)
  | 0x14 => some (.powerOn p ps)
  | 0x15 => some (.powerOff p ps)
  | 0x16 => some (.start p ps)
  | 0x17 => some (.stopSeat p ps)
  | 0x18 => some (.resume p ps)
  | 0x19 => some (.clearFault p ps)
  | 0x1A => some (.readSeat p ps)
  | 0x20 => some (.queueStep p ps)
  | 0x21 => some (.flushQueue p ps)
  | 0x22 => some (.abortStep p ps)
  | 0x23 => some (.readStepState p ps)
  | 0x24 => some (.readSnapshot p ps)
  | 0x28 => some (.takeRegion p ps)
  | 0x29 => some (.shareRegion p ps)
  | 0x2A => some (.dropRegion p ps)
  | 0x2B => some (.writePattern p ps)
  | 0x2C => some (.readPattern p ps)
  | 0x2D => some (.readRegions p ps)
  | 0x30 => some (.writeProgram p ps)
  | 0x31 => some (.eraseProgram p ps)
  | 0x32 => some (.readProgram p ps)
  | 0x33 => some (.setShadow p ps)
  | 0x34 => some (.readChannel p ps)
  | 0x38 => some (.setOutput p ps)
  | 0x39 => some (.readOutputs p ps)
  | 0x3A => some (.setFrameSlot p ps)
  | 0x3B => some (.readFrameSlot p ps)
  | 0x40 => some (.setCalibration p ps)
  | 0x41 => some (.storeCalibration p ps)
  | 0x42 => some (.readCalibration p ps)
  | 0x43 => some (.readSlot p ps)
  | 0x48 => some (.writeLimit p ps)
  | 0x49 => some (.eraseLimit p ps)
  | 0x4A => some (.readLimit p ps)
  | 0x50 => some (.setFilter p ps)
  | 0x51 => some (.setAcceptLong p ps)
  | 0x52 => some (.readCapture p ps)
  | 0x53 => some (.captureStatus p ps)
  | 0x54 => some (.flushCapture p ps)
  | 0x58 => some (.setCursor p ps)
  | 0x59 => some (.writePanel p ps)
  | 0x5A => some (.readPanel p ps)
  | 0x5B => some (.rmwBegin p ps)
  | 0x5C => some (.rmwEnd p ps)
  | 0x5D => some (.panelOn p ps)
  | 0x5E => some (.panelOff p ps)
  | 0x5F => some (.allPointsNormal p ps)
  | 0x60 => some (.allPointsForced p ps)
  | 0x61 => some (.setLamp p ps)
  | 0x62 => some (.readPanelState p ps)
  | 0x68 => some (.readResult p ps)
  | 0x69 => some (.readSummary p ps)
  | 0x6A => some (.clearResults p ps)
  | 0x6B => some (.setSerial p ps)
  | _ => none

/-- Whether a command code is in the table of R179. -/
def knownCode (code : Byte) : Bool := (commandOfCode? code .a []).isSome

/-- The command of a code and its parameters: UNKNOWN_COMMAND where the code is not in the table (R178, R179). -/
def commandOfCode (code : Byte) (p : Port) (ps : List Byte) : Instr :=
  (commandOfCode? code p ps).getD (.unknownCommand p code ps)

/-- One chip-select period read as a command (R176, R177): the code, the parameter length low byte first,
the parameters; a period that ends before the last parameter byte is LINK_TRANSACTION_DISCARDED. Bytes
after the parameters are not read. -/
def linkTransaction (p : Port) (bytes : List Byte) : Instr :=
  match bytes with
  | code :: lo :: hi :: rest =>
    let lp := lo.toNat + 256 * hi.toNat
    if lp ≤ rest.length then commandOfCode code p (rest.take lp)
    else .linkTransactionDiscarded p bytes
  | _ => .linkTransactionDiscarded p bytes

/-- Whether the bytes of a chip-select period hold a whole command (R177). -/
def completeTransaction (bytes : List Byte) : Bool :=
  match bytes with
  | _ :: lo :: hi :: rest => lo.toNat + 256 * hi.toNat ≤ rest.length
  | _ => false

/-- The host's decoder over the rows of spec/opcode_table.json that give bits: there are none. -/
def decodeTableWord (_nbits _w : Nat) : Option Instr := none

end Sys2Proof
end

