-- ==== Sys2Proof/Machine/State.lean ====
section
/-! DEFINITION. The state of the KT36: every record the chapters of spec/ give it, as plain data, and the
state right after a cold reset (R190). Command encodings and numberings (R180) are in Machine/Operands.lean. -/

namespace Sys2Proof
namespace Machine

/-! ### Time -/

/-- A moment of the rack timebase: the rack time (R193) and the microseconds gone since it began, which
conversions and transmissions are timed in (R97, R113; log entry 4). -/
structure Instant where
  ms : RackTime
  us : Nat
  deriving DecidableEq, Repr

/-! ### Memories -/

/-- A memory: pairs of address and value, addresses strictly rising, no listed value 0; an unlisted address
reads 0 (log entry 8). -/
abbrev Memory (w : Nat) := List (Nat × BitVec w)

/-- The canonical form of a memory. -/
abbrev Memory.wf {w : Nat} (m : Memory w) : Prop :=
  m.Pairwise (fun x y => x.1 < y.1) ∧ ∀ c ∈ m, c.2 ≠ 0#w

/-! ### Debounced inputs -/

/-- One debounced input (R3, R158): its debounced level, the raw level, and the time of the last raw change.
`true` is active: CLOSED for present and confirm, TRIPPED for trip, pressed for a key. -/
structure Debounce where
  level : Bool
  raw : Bool
  since : Instant
  deriving DecidableEq, Repr

/-! ### Causes and outcomes -/

/-- Abort causes and fault causes, in the one numbering of R180. -/
inductive Cause where
  | stopKey | stopSeat | portReset | supplyTrip | unitLost | clampLost
  | stationAbort | regionDenied | badReference | clampTimeout | unclampTimeout
  deriving DecidableEq, Repr

/-- The outcome of a step and the verdict of a part, from best to worst (spec 00, Outcomes). -/
inductive StepOutcome where
  | pass | marginal | failTimeout | failLow | failHigh | failPattern | operatorNo | aborted
  deriving DecidableEq, Repr

/-- The part that gave a step its outcome (R38). -/
inductive DecidingPart where
  | noPart | measurement0 | measurement1 | expectation | prompt
  deriving DecidableEq, Repr

/-- The summary of a result store (R166, R169). -/
inductive Summary where
  | none | pass | marginal | fail | aborted
  deriving DecidableEq, Repr

/-! ### Step records (R25, R139, R181) -/

/-- What a channel's moves deliver to (R25, R66). -/
inductive Target where
  | ao0 | ao1 | fo0 | fo1 | dl
  | fs (f : Fin 8)
  deriving DecidableEq, Repr

/-- What makes a channel move (R25, R71 to R73). -/
inductive Trigger where
  | timer (period : Nat)
  | frame (f : Fin 8)
  | chain (e : Fin 3)
  deriving DecidableEq, Repr

/-- What opens sampling (R25, R111). -/
inductive Gate where
  | start
  | delay (d : Nat)
  | mark (e : Fin 3)
  deriving DecidableEq, Repr

/-- A channel entry of a step (R25). -/
structure ChannelEntry where
  program : Fin 48
  target : Target
  keep : Bool
  trigger : Trigger
  deriving DecidableEq, Repr

/-- A measurement of a step (R25). -/
structure Measurement where
  input : Fin 8
  limit : Fin 256
  gate : Gate
  deriving DecidableEq, Repr

/-- A length rule of an expectation (R139). -/
inductive LengthRule where
  | exact (n : Nat)
  | any
  deriving DecidableEq, Repr

/-- Bytes, care masks and a length rule: the pattern and the after pattern of an expectation (R139). -/
structure FramePattern where
  rule : LengthRule
  bytes : Vector Byte 8
  care : Vector Byte 8
  deriving DecidableEq, Repr

/-- The mode of an expectation (R139). -/
inductive ExpectMode where
  | present | absent
  deriving DecidableEq, Repr

/-- An expectation of a step (R139). -/
structure Expectation where
  mode : ExpectMode
  ident : BitVec 11
  mask : BitVec 11
  pattern : FramePattern
  required : Nat
  after : Option FramePattern
  deriving DecidableEq, Repr

/-- The expected answer of a prompt (R25, R155). -/
inductive Expected where
  | yes | no | either
  deriving DecidableEq, Repr

/-- A prompt of a step (R25). -/
structure Prompt where
  addr : PatternAddr
  width : Nat
  expected : Expected
  deriving DecidableEq, Repr

/-- What a seat does after a failing or aborted step (R25, R41). -/
inductive FailPolicy where
  | continue | holdSeat
  deriving DecidableEq, Repr

/-- A step record (R25). -/
structure Step where
  id : Word
  window : Nat
  policy : FailPolicy
  entries : List ChannelEntry
  measurements : List Measurement
  expectation : Option Expectation
  prompt : Option Prompt
  deriving DecidableEq, Repr

/-! ### Running steps (R24) -/

/-- The report of a measurement part (R130). -/
structure MeasReport where
  verdict : StepOutcome
  value : Option Int
  samples : Nat
  deriving DecidableEq, Repr

/-- The report of the expectation part (R145). -/
structure ExpectReport where
  verdict : StepOutcome
  count : Nat
  deriving DecidableEq, Repr

/-- The report of the prompt part (R156, R157). -/
structure PromptReport where
  verdict : StepOutcome
  answer : Option YesNo
  deriving DecidableEq, Repr

/-- The running-step record of a seat (R24). -/
structure Running where
  step : Step
  start : RackTime
  deadline : RackTime
  channels : List (Fin 8)
  slots : List (Fin 6)
  measReports : List (Option MeasReport)
  expectReport : Option ExpectReport
  promptReport : Option PromptReport
  deriving DecidableEq, Repr

/-! ### Abort snapshots (R47) -/

/-- The state of a channel (R66). -/
inductive ChannelState where
  | free | armed | running | done
  deriving DecidableEq, Repr

/-- The zone of a filtered value (R109, R124). -/
inductive Zone where
  | none | outLow | outHigh | marginal | inside
  deriving DecidableEq, Repr

/-- The state of a prompt as a snapshot shows it (R47). -/
inductive SnapshotPrompt where
  | notOpened | open | answeredYes | answeredNo
  deriving DecidableEq, Repr

/-- A channel as a snapshot shows it (R47). -/
structure SnapshotChannel where
  channel : Fin 8
  address : PatternAddr
  remaining : Nat
  shadow : Option PatternAddr
  state : ChannelState
  deriving DecidableEq, Repr

/-- A measurement as a snapshot shows it (R47). -/
structure SnapshotMeas where
  y : Option Int
  run : Nat
  samples : Nat
  zone : Zone
  deriving DecidableEq, Repr

/-- An abort snapshot (R47). -/
structure Snapshot where
  cause : Cause
  stepId : Word
  time : RackTime
  channels : List (Option SnapshotChannel)
  measurements : List SnapshotMeas
  matchCount : Option Nat
  prompt : Option SnapshotPrompt
  deriving DecidableEq, Repr

/-! ### The seat record (R1) -/

/-- The lifecycle state of a seat (R1). -/
inductive SeatState where
  | vacant | loaded | clamping | clamped | powered | testing | hold | unclamping | fault
  deriving DecidableEq, Repr

/-- The clamp actuator output (R1). -/
inductive Actuator where
  | open | closed
  deriving DecidableEq, Repr

/-- The unit supply switch output (R1). -/
inductive Supply where
  | off | on
  deriving DecidableEq, Repr

/-- The seat record with the three debounced sensors (R1, R3). -/
structure SeatRecord where
  state : SeatState
  owner : Option Port
  cause : Option Cause
  serial : Option (List Byte)
  actuator : Actuator
  supply : Supply
  present : Debounce
  confirm : Debounce
  trip : Debounce
  deadline : Option RackTime
  snapshot : Option Snapshot
  deriving DecidableEq, Repr

/-! ### Outputs (R86 to R89) -/

/-- An analog output (R86, R87). -/
structure AnalogOut where
  live : BitVec 12
  lastSet : Option (BitVec 12)
  deriving DecidableEq, Repr

/-- A cycle of a frequency output in progress: its period in units of 10 microseconds, and the
microseconds gone in it (R88). -/
structure Cycle where
  period : Nat
  elapsed : Nat
  deriving DecidableEq, Repr

/-- A frequency output (R86, R88). -/
structure FreqOut where
  live : Word
  lastSet : Option Word
  cycle : Option Cycle
  deriving DecidableEq, Repr

/-- The eight digital lines as one output, bit j for DLj, 1 for HIGH (R86, R89). -/
structure LinesOut where
  live : Byte
  lastSet : Option Byte
  deriving DecidableEq, Repr

/-- The five outputs of a seat (R86). -/
structure Outputs where
  ao0 : AnalogOut
  ao1 : AnalogOut
  fo0 : FreqOut
  fo1 : FreqOut
  dl : LinesOut
  deriving DecidableEq, Repr

/-! ### The frame link (R94 to R100) -/

/-- The last outcome of a frame slot (R94, R98). -/
inductive TxOutcome where
  | none | ack | noAck
  deriving DecidableEq, Repr

/-- A frame schedule slot (R94). -/
structure FrameSlot where
  enable : Bool
  ident : BitVec 11
  length : Nat
  period : Nat
  payload : Vector Byte 8
  last : TxOutcome
  /-- A whole number of periods after the moment the schedule started (R96, R99; log entry 4). -/
  nextDue : Option Instant
  pending : Bool
  deriving DecidableEq, Repr

/-- The state of a frame link; a transmission in flight carries what was taken at its start (R94, R97). -/
inductive FrameLink where
  | idle
  | sending (slot : Fin 8) (ident : BitVec 11) (data : List Byte) (completion : Instant)
  deriving DecidableEq, Repr

/-! ### The capture unit (R132) -/

/-- A receive filter (R133). -/
structure Filter where
  enable : Bool
  ident : BitVec 11
  mask : BitVec 11
  deriving DecidableEq, Repr

/-- A capture record (R135). -/
structure CaptureRecord where
  ident : BitVec 11
  data : List Byte
  time : RackTime
  filter : Fin 8
  deriving DecidableEq, Repr

/-- The expectation state of a capture unit (R132, R140). -/
inductive ExpectState where
  | inactive | watching | decided
  deriving DecidableEq, Repr

/-- The capture unit of a seat (R132). -/
structure Capture where
  filters : Vector Filter 8
  queue : List CaptureRecord
  acceptLong : Bool
  overflow : Bool
  expectState : ExpectState
  expectation : Option Expectation
  matchCount : Nat
  afterSeen : Bool
  verdict : Option StepOutcome
  deriving DecidableEq, Repr

/-! ### Results (R166, R167) -/

/-- A measurement record of a result entry (R167). -/
structure ResultMeas where
  value : Option Int
  samples : Nat
  deriving DecidableEq, Repr

/-- A result entry (R167). -/
structure ResultEntry where
  stepId : Word
  outcome : StepOutcome
  deciding : DecidingPart
  cause : Option Cause
  measurements : List ResultMeas
  matchCount : Option Nat
  answer : Option YesNo
  start : RackTime
  elapsed : RackTime
  deriving DecidableEq, Repr

/-- The result store of a seat (R166). -/
structure ResultStore where
  entries : List ResultEntry
  summary : Summary
  truncated : Bool
  deriving DecidableEq, Repr

/-! ### A seat -/

/-- Everything the KT36 holds once per seat: the seat record, the step queue and running step (R24), the
outputs, the frame link, the capture unit and the result store. -/
structure Seat where
  record : SeatRecord
  queue : List Step
  running : Option Running
  outputs : Outputs
  frames : Vector FrameSlot 8
  link : FrameLink
  capture : Capture
  results : ResultStore
  deriving DecidableEq, Repr

/-! ### Pattern memory grants (R51) -/

/-- An entry of the region grant table (R51). -/
inductive Grant where
  | none | a | b | both
  deriving DecidableEq, Repr

/-! ### Programs and channels (R62, R66) -/

/-- Whether the address steps up or down (R62). -/
inductive Direction where
  | up | down
  deriving DecidableEq, Repr

/-- Whether the channel stops after one transaction (R62). -/
inductive RunMode where
  | oneShot | repeat
  deriving DecidableEq, Repr

/-- A stimulus program (R62). -/
structure Program where
  direction : Direction
  step : Nat
  wrap : Nat
  start : PatternAddr
  count : Nat
  block : Nat
  mode : RunMode
  mark : Nat
  markNotice : Bool
  deriving DecidableEq, Repr

/-- An entry of the program table: empty or written, with its use count (R62). -/
structure ProgramEntry where
  program : Option Program
  uses : Nat
  deriving DecidableEq, Repr

/-- A channel record (R66), with the number of moves already made of the present block, which gives the
position within a frame slot's payload (R76; log entry 10). -/
structure Channel where
  state : ChannelState
  seat : Option (Fin 4)
  entry : Option (Fin 3)
  target : Option Target
  trigger : Option Trigger
  program : Option (Fin 48)
  address : PatternAddr
  remaining : Nat
  shadow : Option PatternAddr
  kept : Bool
  nextTimer : Option RackTime
  outstanding : Nat
  made : Nat
  deriving DecidableEq, Repr

/-! ### Limits and acquisition (R104, R109, R113, R117) -/

/-- The mode of a limit (R117). -/
inductive LimitMode where
  | settle | peakMax | peakMin
  deriving DecidableEq, Repr

/-- A limit (R117). -/
structure Limit where
  mode : LimitMode
  low : Int
  high : Int
  guard : Nat
  settle : Nat
  shift : Nat
  interval : Nat
  deriving DecidableEq, Repr

/-- An entry of the limit table: empty or written, with its use count (R117). -/
structure LimitEntry where
  limit : Option Limit
  uses : Nat
  deriving DecidableEq, Repr

/-- Where a calibration entry's values came from (R104). -/
inductive CalSource where
  | default | eeprom | set
  deriving DecidableEq, Repr

/-- A calibration entry (R104). -/
structure CalEntry where
  offset : Int
  gain : Word
  source : CalSource
  deriving DecidableEq, Repr

/-- The state of a measurement slot (R109). -/
inductive SlotState where
  | free | gated | sampling | latched
  deriving DecidableEq, Repr

/-- A measurement slot (R109), with the number of its binding (R113; log entry 25). -/
structure MeasSlot where
  state : SlotState
  seat : Option (Fin 4)
  measurement : Option (Fin 2)
  input : Option (Fin 8)
  limit : Option (Fin 256)
  gate : Option Gate
  gateTime : Option RackTime
  y : Option Int
  run : Nat
  runMarginal : Bool
  zone : Zone
  extreme : Option Int
  samples : Nat
  nextDue : Option RackTime
  due : Bool
  binding : Nat
  deriving DecidableEq, Repr

/-- The converter (R113); in a conversion it holds the code of the voltage sampled at the start (R103). -/
inductive Converter where
  | idle
  | converting (slot : Fin 6) (binding : Nat) (input : Fin 32) (completion : Instant) (code : BitVec 12)
  deriving DecidableEq, Repr

/-! ### The panel controller (R147 to R163) -/

/-- Display ON or OFF (R162). -/
inductive Display where
  | on | off
  deriving DecidableEq, Repr

/-- All-points mode (R162). -/
inductive AllPoints where
  | normal | forced
  deriving DecidableEq, Repr

/-- The saver (R162, R163). -/
inductive Saver where
  | none | standby | sleep
  deriving DecidableEq, Repr

/-- Lamp modes (R160). -/
inductive LampMode where
  | off | slow | fast | steady
  deriving DecidableEq, Repr

/-- A seat lamp: its set mode, and the microseconds gone in the present blink period (R160; log entry 23). -/
structure Lamp where
  mode : LampMode
  phase : Nat
  deriving DecidableEq, Repr

/-- A prompt record (R155). -/
structure PromptRecord where
  isOpen : Bool
  expected : Option Expected
  width : Option Nat
  deriving DecidableEq, Repr

/-- A panel cursor (R148). -/
structure Cursor where
  page : Fin 8
  column : Fin 128
  latch : Byte
  rmw : Bool
  saved : Fin 128
  deriving DecidableEq, Repr

/-- The panel controller. -/
structure Panel where
  ram : Memory 8
  display : Display
  allPoints : AllPoints
  saver : Saver
  lamps : Vector Lamp 4
  prompts : Vector PromptRecord 4
  cursorA : Cursor
  cursorB : Cursor
  yesKeys : Vector Debounce 4
  noKeys : Vector Debounce 4
  stopKey : Debounce
  deriving DecidableEq, Repr

/-! ### Station ports (R175, R183) -/

/-- The response codes (R178). -/
inductive Status where
  | ok | accepted | notReady | busy | notOwner | inUse | badParam | wrongState | full | paneHeld
  | denied | resultsPending | unknown
  deriving DecidableEq, Repr

/-- The answer of a command: its status byte and its result bytes (R176). -/
structure Answer where
  status : Status
  result : List Byte
  deriving DecidableEq, Repr

/-- The link receiver of a port (R175): RECEIVING from the fall of chip select; while ANSWERING it holds the answer
being clocked out. -/
inductive LinkReceiver where
  | idle
  | receiving
  | answering (answer : Answer)
  deriving DecidableEq, Repr

/-- The seven notice kinds (R183). -/
inductive NoticeKind where
  | stepDone | seatState | fault | key | mark | storeDone | config
  deriving DecidableEq, Repr

/-- A notice record (R183). -/
structure Notice where
  kind : NoticeKind
  level : Fin 16
  seat : Option (Fin 4)
  stepId : Option Word
  code : Byte
  count : Option Nat
  time : RackTime
  deriving DecidableEq, Repr

/-- A station port (R175), with the levels of its chip select (R176) and its reset input (R189): `true` is
active. -/
structure PortRecord where
  link : LinkReceiver
  select : Bool
  queue : List Notice
  levels : Vector (Fin 16) 7
  threshold : Fin 16
  overflow : Bool
  attn : Bool
  resetActive : Bool
  deriving DecidableEq, Repr

/-! ### The configuration loader (R106, R190 to R192) -/

/-- Held in rack reset, loading, or ready (R190, R192). -/
inductive LoadPhase where
  | held | loading | ready
  deriving DecidableEq, Repr

/-- The configuration source (R188, R191). -/
inductive ConfigSource where
  | eeprom | defaults
  deriving DecidableEq, Repr

/-- A calibration store in progress (R106). -/
structure StoreOp where
  port : Port
  entry : Fin 32
  offset : Int
  gain : Word
  finish : RackTime
  deriving DecidableEq, Repr

/-- The configuration loader. -/
structure Loader where
  phase : LoadPhase
  source : Option ConfigSource
  clampTimeout : Nat
  unclampTimeout : Nat
  store : Option StoreOp
  deriving DecidableEq, Repr

/-! ### The whole state -/

/-- The state of the KT36, and the queue of the commands that are waiting. -/
structure State where
  /-- MODEL: the commands waiting, first in first out. -/
  pending : List Instr
  /-- MODEL: the index of the next free value (log entry 2). -/
  draws : Nat
  /-- MODEL: the number the next slot binding takes (log entry 25). -/
  bindings : Nat
  clock : Instant
  loader : Loader
  eeprom : Memory 16
  pattern : Memory 16
  grants : Vector Grant 32
  programs : Vector ProgramEntry 48
  channels : Vector Channel 8
  limits : Vector LimitEntry 256
  calibration : Vector CalEntry 32
  slots : Vector MeasSlot 6
  /-- The voltages at the 32 measurement inputs of the rack, in volts (R103). -/
  inputs : Vector Rat 32
  converter : Converter
  rotation : Fin 6
  waitList : List (Fin 4)
  seats : Vector Seat 4
  panel : Panel
  portA : PortRecord
  portB : PortRecord
  deriving DecidableEq, Repr

/-- Why the block could stop with a fault. The spec names no condition that stops the KT36 (the seat state
FAULT is an ordinary state of a seat, R8), so there is no constructor: no meaning raises a fault. -/
inductive Fault where
  deriving DecidableEq, Repr

/-- Why a command could have no meaning. -/
inductive Refusal where
  /-- Raised by exec for a command that has no meaning yet (safe: a claim about it cannot be proved). No
  command of this model is left so. -/
  | notModelled (mnemonic : String)
  deriving DecidableEq, Repr

/-! ### Values at cold reset -/

/-- Rack time 0 (R190). -/
def Instant.zero : Instant where
  ms := 0
  us := 0

/-- A debounced input at reset: debounced inactive (R3, R158); the raw level is DESIGN CHOICE (log entry 7). -/
def Debounce.inactive : Debounce where
  level := false
  raw := false
  since := Instant.zero

/-- The FREE values of a channel (R66). -/
def Channel.free : Channel where
  state := .free
  seat := none
  entry := none
  target := none
  trigger := none
  program := none
  address := 0
  remaining := 0
  shadow := none
  kept := false
  nextTimer := none
  outstanding := 0
  made := 0

/-- The FREE values of a measurement slot (R109). -/
def MeasSlot.free : MeasSlot where
  state := .free
  seat := none
  measurement := none
  input := none
  limit := none
  gate := none
  gateTime := none
  y := none
  run := 0
  runMarginal := false
  zone := .none
  extreme := none
  samples := 0
  nextDue := none
  due := false
  binding := 0

/-- The outputs at rest, with no last-set value (R86). -/
def Outputs.reset : Outputs where
  ao0 := { live := 0, lastSet := none }
  ao1 := { live := 0, lastSet := none }
  fo0 := { live := 0, lastSet := none, cycle := none }
  fo1 := { live := 0, lastSet := none, cycle := none }
  dl := { live := 0, lastSet := none }

/-- A frame slot at cold reset (R94). -/
def FrameSlot.reset : FrameSlot where
  enable := false
  ident := 0
  length := 0
  period := 1
  payload := Vector.replicate 8 0
  last := .none
  nextDue := none
  pending := false

/-- A capture unit at cold reset (R132). -/
def Capture.reset : Capture where
  filters := Vector.replicate 8 { enable := false, ident := 0, mask := 0 }
  queue := []
  acceptLong := false
  overflow := false
  expectState := .inactive
  expectation := none
  matchCount := 0
  afterSeen := false
  verdict := none

/-- A seat record at cold reset (R22). -/
def SeatRecord.reset : SeatRecord where
  state := .vacant
  owner := none
  cause := none
  serial := none
  actuator := .open
  supply := .off
  present := Debounce.inactive
  confirm := Debounce.inactive
  trip := Debounce.inactive
  deadline := none
  snapshot := none

/-- A seat at cold reset (R22, R24, R86, R94, R132, R166). -/
def Seat.reset : Seat where
  record := SeatRecord.reset
  queue := []
  running := none
  outputs := Outputs.reset
  frames := Vector.replicate 8 FrameSlot.reset
  link := .idle
  capture := Capture.reset
  results := { entries := [], summary := .none, truncated := false }

/-- A cursor at cold reset and at its port's reset (R148). -/
def Cursor.reset : Cursor where
  page := 0
  column := 0
  latch := 0
  rmw := false
  saved := 0

/-- The panel controller at cold reset (R165). -/
def Panel.reset : Panel where
  ram := []
  display := .on
  allPoints := .normal
  saver := .none
  lamps := Vector.replicate 4 { mode := .off, phase := 0 }
  prompts := Vector.replicate 4 { isOpen := false, expected := none, width := none }
  cursorA := Cursor.reset
  cursorB := Cursor.reset
  yesKeys := Vector.replicate 4 Debounce.inactive
  noKeys := Vector.replicate 4 Debounce.inactive
  stopKey := Debounce.inactive

/-- The default notice levels, in kind order (R187). -/
def defaultLevels : Vector (Fin 16) 7 := #v[4, 6, 12, 3, 2, 5, 8]

/-- A station port at cold reset (R175); the levels of its chip select and its reset input are DESIGN CHOICE (log
entry 7). -/
def PortRecord.reset : PortRecord where
  link := .idle
  select := false
  queue := []
  levels := defaultLevels
  threshold := 0
  overflow := false
  attn := false
  resetActive := false

/-- The loader as it enters LOADING (R190, R191). -/
def Loader.reset : Loader where
  phase := .loading
  source := none
  clampTimeout := Config.defaultTimeout
  unclampTimeout := Config.defaultTimeout
  store := none

/-- The KT36 right after a cold reset, as the rack reset input is released: every block at the values its
chapter gives, the loader LOADING, rack time 0 (R190; log entry 6), and no command waiting. -/
def State.reset : State where
  pending := []
  draws := 0
  bindings := 0
  clock := Instant.zero
  loader := Loader.reset
  eeprom := []
  pattern := []
  grants := Vector.replicate 32 .none
  programs := Vector.replicate 48 { program := none, uses := 0 }
  channels := Vector.replicate 8 Channel.free
  limits := Vector.replicate 256 { limit := none, uses := 0 }
  calibration := Vector.replicate 32 { offset := 0, gain := 4096, source := .default }
  slots := Vector.replicate 6 MeasSlot.free
  inputs := Vector.replicate 32 0
  converter := .idle
  rotation := 5
  waitList := []
  seats := Vector.replicate 4 Seat.reset
  panel := Panel.reset
  portA := PortRecord.reset
  portB := PortRecord.reset

end Machine
end Sys2Proof
end

