-- ==== Sys2Proof/Machine/Operands.lean ====
section
/-! DEFINITION. Every operand form of the link (R180 to R183): how parameter bytes spell operands, with
their range checks (a `none` is BAD_PARAM), and how results are spelled in bytes. -/

namespace Sys2Proof
namespace Machine

/-! ### Bytes and numbers (R180) -/

/-- The low byte of a word. -/
def lowByte (w : Word) : Byte := w.setWidth 8

/-- The high byte of a word. -/
def highByte (w : Word) : Byte := (w >>> 8).setWidth 8

/-- A 16-bit number sent low byte first. -/
def word16 (lo hi : Byte) : Word := hi ++ lo

/-- A number in one byte. -/
def e8 (n : Nat) : List Byte := [BitVec.ofNat 8 n]

/-- A number in two bytes, low byte first. -/
def e16 (n : Nat) : List Byte := [BitVec.ofNat 8 n, BitVec.ofNat 8 (n / 256)]

/-- A number in four bytes, low byte first. -/
def e32 (n : Nat) : List Byte := e16 n ++ e16 (n / 65536)

/-- A signed number in two bytes. -/
def eInt16 (i : Int) : List Byte := e16 (BitVec.ofInt 16 i).toNat

/-- A signed number in four bytes. -/
def eInt32 (i : Int) : List Byte := e32 (BitVec.ofInt 32 i).toNat

/-- A flag: 00h clear, 01h set. -/
def eFlag (b : Bool) : List Byte := if b then [1] else [0]

/-- Zero bytes. -/
def zeros (n : Nat) : List Byte := List.replicate n 0

/-- An optional field whose value takes `len` bytes: a presence byte and the value, zeros when absent. -/
def eOpt {α : Type} (len : Nat) (enc : α → List Byte) : Option α → List Byte
  | none => 0 :: zeros len
  | some x => 1 :: enc x

/-- A list: a count byte and the items. -/
def eList {α : Type} (enc : α → List Byte) (l : List α) : List Byte := e8 l.length ++ l.flatMap enc

/-- A text: a length byte and the characters. -/
def eText (t : List Byte) : List Byte := e8 t.length ++ t

/-- An optional text; absent it is the presence byte and an empty text (log entry 15). -/
def eOptText (t : Option (List Byte)) : List Byte := eOpt 1 eText t

/-- An index byte below `n`. -/
def finArg (n : Nat) (b : Byte) : Option (Fin n) := if h : b.toNat < n then some ⟨b.toNat, h⟩ else none

/-- A flag byte (R180: any other value gives BAD_PARAM). -/
def flagArg (b : Byte) : Option Bool :=
  if b = 0 then some false else if b = 1 then some true else none

/-- A pattern memory address, 0 to 16383. -/
def addrArg (lo hi : Byte) : Option PatternAddr :=
  if (word16 lo hi).toNat < 16384 then some ((word16 lo hi).setWidth 14) else none

/-- A frame identifier or mask, 0 to 2047. -/
def identArg (lo hi : Byte) : Option (BitVec 11) :=
  if (word16 lo hi).toNat < 2048 then some ((word16 lo hi).setWidth 11) else none

/-- Eight bytes as a vector. -/
def vec8Arg : List Byte → Option (Vector Byte 8)
  | [a, b, c, d, e, f, g, h] => some #v[a, b, c, d, e, f, g, h]
  | _ => none

/-! ### Named values (R180) -/

/-- Port A = 0, port B = 1. -/
def portCode : Port → Nat
  | .a => 0
  | .b => 1

/-- A seat's owner: NONE, A, B in the order of R1. -/
def ownerCode : Option Port → Nat
  | none => 0
  | some .a => 1
  | some .b => 2

/-- Causes, in the one numbering of R180. -/
def Cause.code : Cause → Nat
  | .stopKey => 0
  | .stopSeat => 1
  | .portReset => 2
  | .supplyTrip => 3
  | .unitLost => 4
  | .clampLost => 5
  | .stationAbort => 6
  | .regionDenied => 7
  | .badReference => 8
  | .clampTimeout => 9
  | .unclampTimeout => 10

/-- Outcomes, numbered by rank (R180). -/
def StepOutcome.rank : StepOutcome → Nat
  | .pass => 0
  | .marginal => 1
  | .failTimeout => 2
  | .failLow => 3
  | .failHigh => 4
  | .failPattern => 5
  | .operatorNo => 6
  | .aborted => 7

/-- Deciding parts (R182). -/
def DecidingPart.code : DecidingPart → Nat
  | .noPart => 0
  | .measurement0 => 1
  | .measurement1 => 2
  | .expectation => 3
  | .prompt => 4

/-- Summaries, in the order of R166, which is also from best to worst (R169). -/
def Summary.code : Summary → Nat
  | .none => 0
  | .pass => 1
  | .marginal => 2
  | .fail => 3
  | .aborted => 4

/-- Seat states, VACANT = 0 to FAULT = 8 (R180). -/
def SeatState.code : SeatState → Nat
  | .vacant => 0
  | .loaded => 1
  | .clamping => 2
  | .clamped => 3
  | .powered => 4
  | .testing => 5
  | .hold => 6
  | .unclamping => 7
  | .fault => 8

/-- OPEN 0, CLOSED 1 (R1). -/
def Actuator.code : Actuator → Nat
  | .open => 0
  | .closed => 1

/-- OFF 0, ON 1 (R1). -/
def Supply.code : Supply → Nat
  | .off => 0
  | .on => 1

/-- Targets and outputs (R180). -/
def Target.code : Target → Nat
  | .ao0 => 0
  | .ao1 => 1
  | .fo0 => 2
  | .fo1 => 3
  | .dl => 4
  | .fs f => 8 + f.val

/-- A target byte (R180). -/
def targetArg (b : Byte) : Option Target :=
  match b.toNat with
  | 0 => some .ao0
  | 1 => some .ao1
  | 2 => some .fo0
  | 3 => some .fo1
  | 4 => some .dl
  | _ =>
    if 8 ≤ b.toNat then
      (if h : b.toNat - 8 < 8 then some (.fs ⟨b.toNat - 8, h⟩) else none)
    else none

/-- An output byte of SET_OUTPUT: one of the five; a frame slot is no output (R91). -/
def outputArg (b : Byte) : Option Target := if b.toNat < 5 then targetArg b else none

/-- FREE, ARMED, RUNNING, DONE (R66). -/
def ChannelState.code : ChannelState → Nat
  | .free => 0
  | .armed => 1
  | .running => 2
  | .done => 3

/-- FREE, GATED, SAMPLING, LATCHED (R109). -/
def SlotState.code : SlotState → Nat
  | .free => 0
  | .gated => 1
  | .sampling => 2
  | .latched => 3

/-- NONE, OUT_LOW, OUT_HIGH, MARGINAL, INSIDE (R109). -/
def Zone.code : Zone → Nat
  | .none => 0
  | .outLow => 1
  | .outHigh => 2
  | .marginal => 3
  | .inside => 4

/-- NOT_OPENED, OPEN, ANSWERED_YES, ANSWERED_NO (R47). -/
def SnapshotPrompt.code : SnapshotPrompt → Nat
  | .notOpened => 0
  | .open => 1
  | .answeredYes => 2
  | .answeredNo => 3

/-- YES 0, NO 1 (R182, R183). -/
def yesNoCode : YesNo → Nat
  | .yes => 0
  | .no => 1

/-- YES 0, NO 1, EITHER 2 (R181). -/
def Expected.code : Expected → Nat
  | .yes => 0
  | .no => 1
  | .either => 2

/-- NONE, A, B, BOTH (R51). -/
def Grant.code : Grant → Nat
  | .none => 0
  | .a => 1
  | .b => 2
  | .both => 3

/-- NONE, ACK, NO_ACK (R94). -/
def TxOutcome.code : TxOutcome → Nat
  | .none => 0
  | .ack => 1
  | .noAck => 2

/-- DEFAULT, EEPROM, SET (R104). -/
def CalSource.code : CalSource → Nat
  | .default => 0
  | .eeprom => 1
  | .set => 2

/-- INACTIVE, WATCHING, DECIDED (R132). -/
def ExpectState.code : ExpectState → Nat
  | .inactive => 0
  | .watching => 1
  | .decided => 2

/-- ON 0, OFF 1, in the order of R162. -/
def Display.code : Display → Nat
  | .on => 0
  | .off => 1

/-- NORMAL 0, FORCED 1 (R162). -/
def AllPoints.code : AllPoints → Nat
  | .normal => 0
  | .forced => 1

/-- NONE, STANDBY, SLEEP (R162). -/
def Saver.code : Saver → Nat
  | .none => 0
  | .standby => 1
  | .sleep => 2

/-- OFF, SLOW, FAST, STEADY (R160). -/
def LampMode.code : LampMode → Nat
  | .off => 0
  | .slow => 1
  | .fast => 2
  | .steady => 3

/-- A lamp mode byte (R161). -/
def lampArg (b : Byte) : Option LampMode :=
  match b.toNat with
  | 0 => some .off
  | 1 => some .slow
  | 2 => some .fast
  | 3 => some .steady
  | _ => none

/-- EEPROM 0, DEFAULTS 1 (R183, R188). -/
def ConfigSource.code : ConfigSource → Nat
  | .eeprom => 0
  | .defaults => 1

/-- Notice kinds (R183). -/
def NoticeKind.index : NoticeKind → Fin 7
  | .stepDone => 0
  | .seatState => 1
  | .fault => 2
  | .key => 3
  | .mark => 4
  | .storeDone => 5
  | .config => 6

/-- ON 0, OFF 1, in the order of R132 and R134. -/
def acceptLongCode (on : Bool) : Nat := if on then 0 else 1

/-- The setting byte of SET_ACCEPT_LONG (R134). -/
def acceptLongArg (b : Byte) : Option Bool :=
  if b = 0 then some true else if b = 1 then some false else none

/-- asserted 0, released 1, in the order of R175 (log entry 16). -/
def attnCode (asserted : Bool) : Nat := if asserted then 0 else 1

/-- Status values (R178). -/
def Status.code : Status → Byte
  | .ok => 0x00
  | .accepted => 0x01
  | .notReady => 0x02
  | .busy => 0x03
  | .notOwner => 0x04
  | .inUse => 0x05
  | .badParam => 0x06
  | .wrongState => 0x07
  | .full => 0x08
  | .paneHeld => 0x09
  | .denied => 0x0A
  | .resultsPending => 0x0B
  | .unknown => 0x0C

/-- The response bytes of an answer, from the status byte on (R176). -/
def Answer.bytes (a : Answer) : List Byte := a.status.code :: (e16 a.result.length ++ a.result)

/-! ### The step record of QUEUE_STEP (R181) -/

/-- A trigger: a kind byte and a 2-byte value. -/
def triggerArg (kind lo hi : Byte) : Option Trigger :=
  let v := (word16 lo hi).toNat
  match kind.toNat with
  | 0 => if 1 ≤ v then some (.timer v) else none
  | 1 => if h : v < 8 then some (.frame ⟨v, h⟩) else none
  | 2 => if h : v < 3 then some (.chain ⟨v, h⟩) else none
  | _ => none

/-- A gate: a kind byte and a 2-byte value, which is 0 for START. -/
def gateArg (kind lo hi : Byte) : Option Gate :=
  let v := (word16 lo hi).toNat
  match kind.toNat with
  | 0 => if v = 0 then some .start else none
  | 1 => some (.delay v)
  | 2 => if h : v < 3 then some (.mark ⟨v, h⟩) else none
  | _ => none

/-- A channel entry, 6 bytes. -/
def entryArg : List Byte → Option (ChannelEntry × List Byte)
  | pr :: tg :: kp :: kind :: lo :: hi :: rest =>
    match finArg 48 pr, targetArg tg, flagArg kp, triggerArg kind lo hi with
    | some program, some target, some keep, some trigger =>
      some ({ program := program, target := target, keep := keep, trigger := trigger }, rest)
    | _, _, _, _ => none
  | _ => none

/-- A measurement, 5 bytes. -/
def measArg : List Byte → Option (Measurement × List Byte)
  | inp :: lim :: kind :: lo :: hi :: rest =>
    match finArg 8 inp, finArg 256 lim, gateArg kind lo hi with
    | some input, some limit, some gate => some ({ input := input, limit := limit, gate := gate }, rest)
    | _, _, _ => none
  | _ => none

/-- `n` items one after another. -/
def manyArg {α : Type} (item : List Byte → Option (α × List Byte)) : Nat → List Byte → Option (List α × List Byte)
  | 0, bs => some ([], bs)
  | n + 1, bs =>
    match item bs with
    | none => none
    | some (x, rest) =>
      match manyArg item n rest with
      | none => none
      | some (xs, rest') => some (x :: xs, rest')

/-- A length rule: 0 to 8 for EXACT, FFh for ANY. -/
def ruleArg (b : Byte) : Option LengthRule :=
  if b.toNat ≤ 8 then some (.exact b.toNat) else if b = 0xFF then some .any else none

/-- Pattern bytes, care masks and a length rule. -/
def patternArg (bytes care : List Byte) (rule : Byte) : Option FramePattern :=
  match vec8Arg bytes, vec8Arg care, ruleArg rule with
  | some b, some c, some r => some { rule := r, bytes := b, care := c }
  | _, _, _ => none

/-- The after pattern: its length rule is checked whether the flag is set or clear (R181); with the flag clear it is
absent, whatever the other bytes (log entry 17). -/
def afterArg (flag : Byte) (bytes care : List Byte) (rule : Byte) : Option (Option FramePattern) :=
  match flagArg flag, patternArg bytes care rule with
  | some true, some p => some (some p)
  | some false, some _ => some none
  | _, _ => none

/-- The mode of an expectation: PRESENT 0, ABSENT 1. -/
def expectModeArg (b : Byte) : Option ExpectMode :=
  if b = 0 then some .present else if b = 1 then some .absent else none

/-- An expectation, 41 bytes. -/
def expectationArg : List Byte → Option (Expectation × List Byte)
  | mode :: i0 :: i1 :: m0 :: m1 :: rule :: rest =>
    match rest.drop 16 with
    | required :: flag :: tail =>
      match (tail.drop 16) with
      | aRule :: rest' =>
        match expectModeArg mode, identArg i0 i1, identArg m0 m1,
          patternArg (rest.take 8) ((rest.drop 8).take 8) rule,
          afterArg flag (tail.take 8) ((tail.drop 8).take 8) aRule with
        | some md, some ident, some mask, some pattern, some after =>
          if 1 ≤ required.toNat ∧ required.toNat ≤ 15 then
            some ({ mode := md, ident := ident, mask := mask, pattern := pattern,
                    required := required.toNat, after := after }, rest')
          else none
        | _, _, _, _, _ => none
      | _ => none
    | _ => none
  | _ => none

/-- The expected answer of a prompt: YES 0, NO 1, EITHER 2. -/
def expectedArg (b : Byte) : Option Expected :=
  match b.toNat with
  | 0 => some .yes
  | 1 => some .no
  | 2 => some .either
  | _ => none

/-- A prompt, 4 bytes. -/
def promptArg : List Byte → Option (Prompt × List Byte)
  | lo :: hi :: width :: exp :: rest =>
    match addrArg lo hi, expectedArg exp with
    | some addr, some expected =>
      if 1 ≤ width.toNat ∧ width.toNat ≤ 128 then
        some ({ addr := addr, width := width.toNat, expected := expected }, rest)
      else none
    | _, _ => none
  | _ => none

/-- A group that is present when its flag is set. -/
def optionalArg {α : Type} (item : List Byte → Option (α × List Byte)) (present : Bool) (bs : List Byte) :
    Option (Option α × List Byte) :=
  if present then
    match item bs with
    | none => none
    | some (x, rest) => some (some x, rest)
  else some (none, bs)

/-- The fail policy: CONTINUE 0, HOLD_SEAT 1. -/
def policyArg (b : Byte) : Option FailPolicy :=
  if b = 0 then some .continue else if b = 1 then some .holdSeat else none

/-- A whole step record; the counts and flags of its header fix its length. -/
def stepArg : List Byte → Option Step
  | id0 :: id1 :: w0 :: w1 :: pol :: ne :: nm :: fe :: fp :: rest =>
    match policyArg pol, flagArg fe, flagArg fp with
    | some policy, some hasExpect, some hasPrompt =>
      if ne.toNat ≤ 3 ∧ nm.toNat ≤ 2 ∧ 1 ≤ (word16 w0 w1).toNat then
        match manyArg entryArg ne.toNat rest with
        | none => none
        | some (entries, r1) =>
          match manyArg measArg nm.toNat r1 with
          | none => none
          | some (measurements, r2) =>
            match optionalArg expectationArg hasExpect r2 with
            | none => none
            | some (expectation, r3) =>
              match optionalArg promptArg hasPrompt r3 with
              | some (prompt, []) =>
                some { id := word16 id0 id1, window := (word16 w0 w1).toNat, policy := policy,
                       entries := entries, measurements := measurements,
                       expectation := expectation, prompt := prompt }
              | _ => none
      else none
    | _, _, _ => none
  | _ => none

/-- Whether no two channel entries name the same target (R26). -/
def targetsDistinct (es : List ChannelEntry) : Bool := (es.map (·.target)).Nodup

/-- Whether a CHAIN trigger of the entry at `i` names another entry that the step has (R26). -/
def chainOk (n i : Nat) : Trigger → Bool
  | .chain e => e.val ≠ i && e.val < n
  | _ => true

/-- Whether every CHAIN trigger is in order, from entry `i` on. -/
def chainsOk (n : Nat) : Nat → List ChannelEntry → Bool
  | _, [] => true
  | i, e :: es => chainOk n i e.trigger && chainsOk n (i + 1) es

/-- Whether a MARK gate names an entry that the step has (R26). -/
def gateOk (n : Nat) : Gate → Bool
  | .mark e => e.val < n
  | _ => true

/-- The bitmap's last word lies in pattern memory (R26). -/
def bitmapOk : Option Prompt → Bool
  | none => true
  | some p => p.addr.toNat + p.width - 1 ≤ 16383

/-- The checks of R26 beyond the ranges of the fields. -/
def stepOk (st : Step) : Bool :=
  bitmapOk st.prompt && targetsDistinct st.entries && chainsOk st.entries.length 0 st.entries &&
    st.measurements.all (fun m => gateOk st.entries.length m.gate) &&
    decide ((st.entries.filter (·.keep)).length ≤ 1)

/-- The parameters of QUEUE_STEP: a seat and a step record (R26, R181). -/
def queueStepArg : List Byte → Option (Fin 4 × Step)
  | sb :: rest =>
    match finArg 4 sb, stepArg rest with
    | some k, some st => if stepOk st then some (k, st) else none
    | _, _ => none
  | _ => none

/-! ### Program and limit records (R62, R117, R182) -/

/-- A program record, 12 bytes, with the ranges of R62 and R63. -/
def programArg : List Byte → Option Program
  | [dir, step, wrap, s0, s1, c0, c1, block, mode, m0, m1, note] =>
    let count := (word16 c0 c1).toNat
    let mark := (word16 m0 m1).toNat
    match flagArg dir, addrArg s0 s1, flagArg mode, flagArg note with
    | some down, some start, some rep, some notice =>
      if step.toNat ∈ [1, 2, 4, 8, 16, 32, 64, 128] ∧ wrap.toNat ≤ 14 ∧ 1 ≤ count ∧ count ≤ 1024 ∧
          block.toNat ∈ [1, 2, 4, 8, 16] ∧ mark ≤ 1023 then
        some { direction := if down then .down else .up, step := step.toNat, wrap := wrap.toNat,
               start := start, count := count, block := block.toNat,
               mode := if rep then .repeat else .oneShot, mark := mark, markNotice := notice }
      else none
    | _, _, _, _ => none
  | _ => none

/-- A limit mode byte: SETTLE 0, PEAK_MAX 1, PEAK_MIN 2. -/
def limitModeArg (b : Byte) : Option LimitMode :=
  match b.toNat with
  | 0 => some .settle
  | 1 => some .peakMax
  | 2 => some .peakMin
  | _ => none

/-- A limit record, 10 bytes, with the ranges of R118. -/
def limitArg : List Byte → Option Limit
  | [mode, l0, l1, h0, h1, g0, g1, settle, shift, interval] =>
    let low := (word16 l0 l1).toInt
    let high := (word16 h0 h1).toInt
    let guard := (word16 g0 g1).toNat
    match limitModeArg mode with
    | some md =>
      if low ≤ high ∧ guard ≤ 32767 ∧ 1 ≤ settle.toNat ∧ shift.toNat ≤ 7 ∧ 1 ≤ interval.toNat then
        some { mode := md, low := low, high := high, guard := guard, settle := settle.toNat,
               shift := shift.toNat, interval := interval.toNat }
      else none
    | none => none
  | _ => none

/-! ### Parameters of the other commands -/

/-- No parameters. -/
def noArg : List Byte → Option Unit
  | [] => some ()
  | _ => none

/-- One index below `n`. -/
def indexArg (n : Nat) : List Byte → Option (Fin n)
  | [b] => finArg n b
  | _ => none

/-- Two indexes. -/
def indexPairArg (n m : Nat) : List Byte → Option (Fin n × Fin m)
  | [a, b] =>
    match finArg n a, finArg m b with
    | some x, some y => some (x, y)
    | _, _ => none
  | _ => none

/-- A seat and a step id (R43). -/
def abortStepArg : List Byte → Option (Fin 4 × Word)
  | [k, lo, hi] =>
    match finArg 4 k with
    | some seat => some (seat, word16 lo hi)
    | none => none
  | _ => none

/-- Words sent low byte first; none for an odd number of bytes. -/
def wordsArg : List Byte → Option (List Word)
  | [] => some []
  | lo :: hi :: rest =>
    match wordsArg rest with
    | some ws => some (word16 lo hi :: ws)
    | none => none
  | _ => none

/-- A span of pattern memory: start address and a count of 1 to 64 that stays inside (R55, R56). -/
def spanArg (lo hi count : Byte) : Option (PatternAddr × Nat) :=
  match addrArg lo hi with
  | some a =>
    if 1 ≤ count.toNat ∧ count.toNat ≤ 64 ∧ a.toNat + count.toNat - 1 ≤ 16383 then some (a, count.toNat)
    else none
  | none => none

/-- The parameters of WRITE_PATTERN (R55). -/
def writePatternArg : List Byte → Option (PatternAddr × List Word)
  | lo :: hi :: count :: rest =>
    match spanArg lo hi count, wordsArg rest with
    | some (a, n), some ws => if ws.length = n then some (a, ws) else none
    | _, _ => none
  | _ => none

/-- The parameters of READ_PATTERN (R56). -/
def readPatternArg : List Byte → Option (PatternAddr × Nat)
  | [lo, hi, count] => spanArg lo hi count
  | _ => none

/-- The parameters of WRITE_PROGRAM (R63, R182). -/
def writeProgramArg : List Byte → Option (Fin 48 × Program)
  | i :: rest =>
    match finArg 48 i, programArg rest with
    | some e, some p => some (e, p)
    | _, _ => none
  | _ => none

/-- The parameters of WRITE_LIMIT (R118, R182). -/
def writeLimitArg : List Byte → Option (Fin 256 × Limit)
  | i :: rest =>
    match finArg 256 i, limitArg rest with
    | some e, some l => some (e, l)
    | _, _ => none
  | _ => none

/-- The parameters of SET_SHADOW: seat, channel, and an address or CLEAR as an optional field (R80, R180). -/
def setShadowArg : List Byte → Option (Fin 4 × Fin 8 × Option PatternAddr)
  | [k, c, presence, lo, hi] =>
    match finArg 4 k, finArg 8 c, flagArg presence with
    | some seat, some chan, some true =>
      match addrArg lo hi with
      | some a => some (seat, chan, some a)
      | none => none
    | some seat, some chan, some false => some (seat, chan, none)
    | _, _, _ => none
  | _ => none

/-- The parameters of SET_OUTPUT (R91). -/
def setOutputArg : List Byte → Option (Fin 4 × Target × Word)
  | [k, o, lo, hi] =>
    match finArg 4 k, outputArg o with
    | some seat, some t => some (seat, t, word16 lo hi)
    | _, _ => none
  | _ => none

/-- What SET_FRAME_SLOT carries for a slot (R95). -/
structure FrameSlotSetting where
  enable : Bool
  ident : BitVec 11
  length : Nat
  period : Nat
  payload : Vector Byte 8
  deriving DecidableEq, Repr

/-- The parameters of SET_FRAME_SLOT (R95); no count byte stands before the eight payload bytes (log entry 32). -/
def setFrameSlotArg : List Byte → Option (Fin 4 × Fin 8 × FrameSlotSetting)
  | k :: f :: en :: i0 :: i1 :: len :: p0 :: p1 :: payload =>
    match finArg 4 k, finArg 8 f, flagArg en, identArg i0 i1, vec8Arg payload with
    | some seat, some slot, some enable, some ident, some bytes =>
      if len.toNat ≤ 8 ∧ 1 ≤ (word16 p0 p1).toNat then
        some (seat, slot, { enable := enable, ident := ident, length := len.toNat,
                            period := (word16 p0 p1).toNat, payload := bytes })
      else none
    | _, _, _, _, _ => none
  | _ => none

/-- The parameters of SET_CALIBRATION (R105). -/
def setCalibrationArg : List Byte → Option (Fin 32 × Int × Word)
  | [e, o0, o1, g0, g1] =>
    let offset := (word16 o0 o1).toInt
    match finArg 32 e with
    | some entry => if -2048 ≤ offset ∧ offset ≤ 2047 then some (entry, offset, word16 g0 g1) else none
    | none => none
  | _ => none

/-- The parameters of SET_FILTER (R133). -/
def setFilterArg : List Byte → Option (Fin 4 × Fin 8 × Filter)
  | [k, f, en, i0, i1, m0, m1] =>
    match finArg 4 k, finArg 8 f, flagArg en, identArg i0 i1, identArg m0 m1 with
    | some seat, some filter, some enable, some ident, some mask =>
      some (seat, filter, { enable := enable, ident := ident, mask := mask })
    | _, _, _, _, _ => none
  | _ => none

/-- The parameters of SET_ACCEPT_LONG (R134). -/
def setAcceptLongArg : List Byte → Option (Fin 4 × Bool)
  | [k, v] =>
    match finArg 4 k, acceptLongArg v with
    | some seat, some on => some (seat, on)
    | _, _ => none
  | _ => none

/-- The parameters of WRITE_PANEL: a count of 1 to 128 and that many bytes (R150). -/
def writePanelArg : List Byte → Option (List Byte)
  | count :: bytes =>
    if 1 ≤ count.toNat ∧ count.toNat ≤ 128 ∧ bytes.length = count.toNat then some bytes else none
  | _ => none

/-- The parameters of READ_PANEL: a count of 1 to 128 (R152). -/
def readPanelArg : List Byte → Option Nat
  | [count] => if 1 ≤ count.toNat ∧ count.toNat ≤ 128 then some count.toNat else none
  | _ => none

/-- The parameters of SET_LAMP (R161). -/
def setLampArg : List Byte → Option (Fin 4 × LampMode)
  | [k, m] =>
    match finArg 4 k, lampArg m with
    | some seat, some mode => some (seat, mode)
    | _, _ => none
  | _ => none

/-- Whether a byte is a character of a unit serial (R173). -/
def serialChar (b : Byte) : Bool := 0x20 ≤ b.toNat && b.toNat ≤ 0x7E

/-- The parameters of SET_SERIAL: a seat and a text of 0 to 24 characters (R173). -/
def setSerialArg : List Byte → Option (Fin 4 × List Byte)
  | k :: len :: chars =>
    match finArg 4 k with
    | some seat =>
      if len.toNat ≤ 24 ∧ chars.length = len.toNat ∧ chars.all serialChar then some (seat, chars) else none
    | none => none
  | _ => none

/-! ### Records in results -/

/-- A trigger in a result (R180). -/
def eTrigger : Trigger → List Byte
  | .timer p => e8 0 ++ e16 p
  | .frame f => e8 1 ++ e16 f.val
  | .chain e => e8 2 ++ e16 e.val

/-- A gate in a result (R180). -/
def eGate : Gate → List Byte
  | .start => e8 0 ++ e16 0
  | .delay d => e8 1 ++ e16 d
  | .mark e => e8 2 ++ e16 e.val

/-- A program record, 12 bytes (R182). -/
def eProgram (p : Program) : List Byte :=
  eFlag (p.direction = .down) ++ e8 p.step ++ e8 p.wrap ++ e16 p.start.toNat ++ e16 p.count ++ e8 p.block ++
    eFlag (p.mode = .repeat) ++ e16 p.mark ++ eFlag p.markNotice

/-- Limit modes (R182). -/
def LimitMode.code : LimitMode → Nat
  | .settle => 0
  | .peakMax => 1
  | .peakMin => 2

/-- A limit record, 10 bytes (R182). -/
def eLimit (l : Limit) : List Byte :=
  e8 l.mode.code ++ eInt16 l.low ++ eInt16 l.high ++ e16 l.guard ++ e8 l.settle ++ e8 l.shift ++ e8 l.interval

/-- A notice record, 14 bytes (R183). -/
def eNotice (n : Notice) : List Byte :=
  e8 n.kind.index.val ++ e8 n.level.val ++ eOpt 1 (fun k : Fin 4 => e8 k.val) n.seat ++
    eOpt 2 (fun w : Word => e16 w.toNat) n.stepId ++ [n.code] ++ eOpt 1 e8 n.count ++ e32 n.time.toNat

/-- A capture record (R182). -/
def eCapture (r : CaptureRecord) : List Byte :=
  e16 r.ident.toNat ++ e8 r.data.length ++ eFlag (8 < r.data.length) ++ e32 r.time.toNat ++ e8 r.filter.val ++ r.data

/-- A measurement record of a result entry (R182). -/
def eResultMeas (m : ResultMeas) : List Byte := eOpt 2 eInt16 m.value ++ e16 m.samples

/-- A result entry (R182). -/
def eResult (r : ResultEntry) : List Byte :=
  e16 r.stepId.toNat ++ e8 r.outcome.rank ++ e8 r.deciding.code ++
    eOpt 1 (fun c : Cause => e8 c.code) r.cause ++ eList eResultMeas r.measurements ++
    eOpt 1 e8 r.matchCount ++ eOpt 1 (fun a : YesNo => e8 (yesNoCode a)) r.answer ++
    e32 r.start.toNat ++ e16 r.elapsed.toNat

/-- A channel of a snapshot (R47). -/
def eSnapshotChannel (c : SnapshotChannel) : List Byte :=
  e8 c.channel.val ++ e16 c.address.toNat ++ e16 c.remaining ++
    eOpt 2 (fun a : PatternAddr => e16 a.toNat) c.shadow ++ e8 c.state.code

/-- A measurement of a snapshot (R47). -/
def eSnapshotMeas (m : SnapshotMeas) : List Byte :=
  eOpt 2 eInt16 m.y ++ e8 m.run ++ e16 m.samples ++ e8 m.zone.code

/-- An abort snapshot (R47). -/
def eSnapshot (x : Snapshot) : List Byte :=
  e8 x.cause.code ++ e16 x.stepId.toNat ++ e32 x.time.toNat ++
    eList (eOpt 9 eSnapshotChannel) x.channels ++ eList eSnapshotMeas x.measurements ++
    eOpt 1 e8 x.matchCount ++ eOpt 1 (fun p : SnapshotPrompt => e8 p.code) x.prompt

end Machine
end Sys2Proof
end

