-- ==== Sys2Proof/Machine/Flags.lean ====
section
/-! DEFINITION. The flags, levels, zones and matches the chapters compute from a record: ATTN, the grant
check, the outputs a seat state fixes, frame and filter matches, zones, outcomes and summaries. -/

namespace Sys2Proof
namespace Machine

/-! ### The numbers of the repeated records -/

/-- The four seats. -/
def seatIds : List (Fin 4) := [0, 1, 2, 3]

/-- The numbers 0 to 7: channels, frame slots, filters, payload positions. -/
def ids8 : List (Fin 8) := [0, 1, 2, 3, 4, 5, 6, 7]

/-- The six measurement slots. -/
def slotIds : List (Fin 6) := [0, 1, 2, 3, 4, 5]

/-! ### Time -/

/-- Whether a rack time has been reached: the time gone since it is less than half the count's range, so the
return to 0 reaches nothing early or late (R193; log entry 5). -/
def msReached (now t : RackTime) : Bool := (now - t).toNat < 2147483648

/-- Time left to a rack time, in ms; 0 once it is reached (R21, R49, R84, R101, R108, R115). -/
def msLeft (now t : RackTime) : Nat := if msReached now t then 0 else (t - now).toNat

/-- A rack time plus milliseconds, over the return to 0 (R193). -/
def msAfter (t : RackTime) (n : Nat) : RackTime := t + BitVec.ofNat 32 n

/-- A moment plus microseconds. -/
def Instant.afterUs (t : Instant) (n : Nat) : Instant where
  ms := t.ms + BitVec.ofNat 32 ((t.us + n) / 1000)
  us := (t.us + n) % 1000

/-- A moment plus milliseconds. -/
def Instant.afterMs (t : Instant) (n : Nat) : Instant where
  ms := msAfter t.ms n
  us := t.us

/-- Whether a moment has been reached. -/
def Instant.reached (now t : Instant) : Bool :=
  if now.ms = t.ms then decide (t.us ≤ now.us) else msReached now.ms t.ms

/-- Time left to a moment, in ms of rack time; 0 once it is reached (R101). -/
def Instant.msLeft (now t : Instant) : Nat := if Instant.reached now t then 0 else (t.ms - now.ms).toNat

/-- Whether a debounced input takes its raw level now: the raw level differs and has held for 20 ms (R3, R158). -/
def Debounce.ready (d : Debounce) (now : Instant) : Bool :=
  d.raw != d.level && Instant.reached now (d.since.afterMs Config.debounceMs)

/-- A raw change restarts the count; the same raw level again is no change (R3). -/
def Debounce.rawChange (d : Debounce) (active : Bool) (now : Instant) : Debounce :=
  if d.raw = active then d else { d with raw := active, since := now }

/-! ### Ports (R183, R186) -/

/-- Whether the queue holds a notice above the threshold, which is what ATTN shows (R186). -/
def judgeAttn (queue : List Notice) (threshold : Fin 16) : Bool :=
  queue.any (fun n => decide (threshold < n.level))

/-! ### Seats (R2, R8) -/

/-- The actuator the state fixes (R2); in FAULT it is fixed by the cause. -/
def SeatState.actuator : SeatState → Actuator
  | .vacant | .loaded | .unclamping | .fault => .open
  | .clamping | .clamped | .powered | .testing | .hold => .closed

/-- The supply the state fixes (R2). -/
def SeatState.supply : SeatState → Supply
  | .powered | .testing | .hold => .on
  | .vacant | .loaded | .clamping | .clamped | .unclamping | .fault => .off

/-- The actuator in FAULT: CLOSED for SUPPLY_TRIP, OPEN for every other cause (R2, R8). -/
def Cause.faultActuator : Cause → Actuator
  | .supplyTrip => .closed
  | _ => .open

/-! ### Grants (R51) -/

/-- Whether a grant entry grants its region to a port. -/
def Grant.grants : Grant → Port → Bool
  | .none, _ => false
  | .a, .a => true
  | .a, .b => false
  | .b, .a => false
  | .b, .b => true
  | .both, _ => true

/-- The entry that a port alone holds. -/
def Grant.of : Port → Grant
  | .a => .a
  | .b => .b

/-- The other port. -/
def otherPort : Port → Port
  | .a => .b
  | .b => .a

/-- The region of a pattern memory address (R50). -/
def regionOf (a : PatternAddr) : Fin 32 := ⟨a.toNat / 512, by have := a.isLt; omega⟩

/-! ### Frames (R133, R141) -/

/-- Whether two identifiers are equal where the mask has a 1. -/
def identMatch (ident mask frame : BitVec 11) : Bool := (ident ^^^ frame) &&& mask == 0

/-- Whether a filter matches an identifier (R133). -/
def Filter.matches (f : Filter) (ident : BitVec 11) : Bool := f.enable && identMatch f.ident f.mask ident

/-- The lowest-numbered enabled filter that matches (R135). -/
def firstFilter (fs : Vector Filter 8) (ident : BitVec 11) : Option (Fin 8) :=
  ids8.find? (fun i => fs[i].matches ident)

/-- Whether a length satisfies a length rule; a LONG frame satisfies neither (R141). -/
def LengthRule.ok : LengthRule → Nat → Bool
  | .exact n, len => len == n && decide (len ≤ 8)
  | .any, len => len ≤ 8

/-- Whether position `j` of a frame agrees with a pattern (R141). -/
def positionOk (p : FramePattern) (data : List Byte) (j : Fin 8) : Bool :=
  p.care[j] == 0 ||
    match data[j.val]? with
    | none => false
    | some b => (b ^^^ p.bytes[j]) &&& p.care[j] == 0

/-- Whether a frame matches a pattern (R141). -/
def FramePattern.matches (p : FramePattern) (data : List Byte) : Bool :=
  p.rule.ok data.length && ids8.all (positionOk p data)

/-! ### Zones (R124) -/

/-- The zone of a filtered value under a limit. -/
def zoneOf (l : Limit) (y : Int) : Zone :=
  if y < l.low then .outLow
  else if l.high < y then .outHigh
  else if l.low + l.guard ≤ y ∧ y ≤ l.high - l.guard then .inside
  else .marginal

/-! ### Outcomes and results (R38, R169, R174) -/

/-- The worst of the parts seen so far and those that follow; the earliest of equals stays. -/
def worseOf (best : DecidingPart × StepOutcome) : List (DecidingPart × StepOutcome) → DecidingPart × StepOutcome
  | [] => best
  | p :: ps => worseOf (if best.2.rank < p.2.rank then p else best) ps

/-- The deciding part and the outcome of a step from its part verdicts in record order (R38). -/
def judgeStep : List (DecidingPart × StepOutcome) → DecidingPart × StepOutcome
  | [] => (.noPart, .pass)
  | p :: ps => worseOf p ps

/-- The class of an outcome (R169). -/
def StepOutcome.summaryClass : StepOutcome → Summary
  | .pass => .pass
  | .marginal => .marginal
  | .failTimeout | .failLow | .failHigh | .failPattern | .operatorNo => .fail
  | .aborted => .aborted

/-- The worse of two summaries (R169). -/
def Summary.worse (a b : Summary) : Summary := if a.code < b.code then b else a

/-- Whether results are pending (R174). -/
def ResultStore.isPending (r : ResultStore) : Bool := !r.entries.isEmpty || r.summary != .none

/-! ### Lamps, panel and pins seen from outside (R88, R160, R162) -/

/-- What the panel shows (R162). -/
inductive PanelView where
  | ram | allLit | dark
  deriving DecidableEq, Repr

/-- What the panel shows in its present mode (R162). -/
def Panel.shows (p : Panel) : PanelView :=
  match p.display, p.allPoints with
  | .on, .normal => .ram
  | .on, .forced => .allLit
  | .off, _ => .dark

/-- The blink period of a lamp mode in microseconds; none for a mode that does not blink (R160). -/
def LampMode.period? : LampMode → Option Nat
  | .slow => some 1000000
  | .fast => some 500000
  | .off | .steady => none

/-- Whether a lamp in a mode is lit at a phase; in SLEEP every lamp is dark (R160, R163). -/
def lampLit (saver : Saver) (mode : LampMode) (phase : Nat) : Bool :=
  saver != .sleep &&
    match mode with
    | .off => false
    | .steady => true
    | .slow => phase < 500000
    | .fast => phase < 250000

/-- The voltage of an analog output's pin: 0 V at code 0, and 2.5 V / 4096 more for each step of code (R87). -/
def AnalogOut.volts (o : AnalogOut) : Rat := o.live.toNat * (5 / 2 / 4096)

/-- The level of a frequency output's pin: HIGH for the first half of the cycle, the extra 10 microseconds of
an odd period falling to the LOW half; LOW when stopped (R88). -/
def FreqOut.high (f : FreqOut) : Bool :=
  match f.cycle with
  | none => false
  | some c => c.elapsed < 10 * (c.period / 2)

end Machine
end Sys2Proof
end

