-- ==== Sys2Proof/Machine/Ops.lean ====
section
/-! DEFINITION. The named operations over the state that the meanings share: memories, records by number,
answers and the checks every command passes, notices, outputs, lamps, prompts and seat transitions. -/

namespace Sys2Proof
namespace Machine

/-- What a meaning answers. -/
abbrev Result := Host.Outcome State Fault Refusal

/-! ### Memories -/

/-- The value at an address; an unlisted address reads 0. -/
def Memory.read {w : Nat} : Memory w → Nat → BitVec w
  | [], _ => 0#w
  | (b, x) :: rest, a => if b = a then x else Memory.read rest a

/-- One value before the listed ones; 0 is not listed. -/
def Memory.cons {w : Nat} (a : Nat) (v : BitVec w) (m : Memory w) : Memory w :=
  if v = 0#w then m else (a, v) :: m

/-- Write one value, keeping the canonical form. -/
def Memory.write {w : Nat} : Memory w → Nat → BitVec w → Memory w
  | [], a, v => Memory.cons a v []
  | (b, x) :: rest, a, v =>
    if a < b then Memory.cons a v ((b, x) :: rest)
    else if a = b then Memory.cons a v rest
    else (b, x) :: Memory.write rest a v

/-- Write values at rising addresses. -/
def Memory.writeSpan {w : Nat} (m : Memory w) (a : Nat) : List (BitVec w) → Memory w
  | [] => m
  | v :: vs => Memory.writeSpan (Memory.write m a v) (a + 1) vs

/-- Read `n` values at rising addresses. -/
def Memory.readSpan {w : Nat} (m : Memory w) (a : Nat) : Nat → List (BitVec w)
  | 0 => []
  | n + 1 => Memory.read m a :: Memory.readSpan m (a + 1) n

/-! ### Records by number -/

/-- The seat `k`. -/
def State.seat (s : State) (k : Fin 4) : Seat := s.seats[k]

/-- Replace the seat `k`. -/
def State.setSeat (s : State) (k : Fin 4) (x : Seat) : State := { s with seats := s.seats.set k x }

/-- The seat record of seat `k`. -/
def State.record (s : State) (k : Fin 4) : SeatRecord := (s.seat k).record

/-- Replace the seat record of seat `k`. -/
def State.setRecord (s : State) (k : Fin 4) (r : SeatRecord) : State :=
  s.setSeat k { s.seat k with record := r }

/-- Replace the step queue of seat `k`. -/
def State.setQueue (s : State) (k : Fin 4) (q : List Step) : State := s.setSeat k { s.seat k with queue := q }

/-- Replace the running-step record of seat `k`. -/
def State.setRunning (s : State) (k : Fin 4) (r : Option Running) : State :=
  s.setSeat k { s.seat k with running := r }

/-- Replace the outputs of seat `k`. -/
def State.setOutputs (s : State) (k : Fin 4) (o : Outputs) : State :=
  s.setSeat k { s.seat k with outputs := o }

/-- The frame slot `f` of seat `k`. -/
def State.frame (s : State) (k : Fin 4) (f : Fin 8) : FrameSlot := (s.seat k).frames[f]

/-- Replace the frame slot `f` of seat `k`. -/
def State.setFrame (s : State) (k : Fin 4) (f : Fin 8) (x : FrameSlot) : State :=
  s.setSeat k { s.seat k with frames := (s.seat k).frames.set f x }

/-- Replace the frame link of seat `k`. -/
def State.setLink (s : State) (k : Fin 4) (l : FrameLink) : State := s.setSeat k { s.seat k with link := l }

/-- Replace the capture unit of seat `k`. -/
def State.setCapture (s : State) (k : Fin 4) (c : Capture) : State :=
  s.setSeat k { s.seat k with capture := c }

/-- Replace the result store of seat `k`. -/
def State.setResults (s : State) (k : Fin 4) (r : ResultStore) : State :=
  s.setSeat k { s.seat k with results := r }

/-- The channel `c`. -/
def State.channel (s : State) (c : Fin 8) : Channel := s.channels[c]

/-- Replace the channel `c`. -/
def State.setChannel (s : State) (c : Fin 8) (x : Channel) : State :=
  { s with channels := s.channels.set c x }

/-- The measurement slot `m`. -/
def State.slot (s : State) (m : Fin 6) : MeasSlot := s.slots[m]

/-- Replace the measurement slot `m`. -/
def State.setSlot (s : State) (m : Fin 6) (x : MeasSlot) : State := { s with slots := s.slots.set m x }

/-- The program entry `i`. -/
def State.program (s : State) (i : Fin 48) : ProgramEntry := s.programs[i]

/-- Replace the program entry `i`. -/
def State.setProgram (s : State) (i : Fin 48) (x : ProgramEntry) : State :=
  { s with programs := s.programs.set i x }

/-- The limit entry `i`. -/
def State.limit (s : State) (i : Fin 256) : LimitEntry := s.limits[i]

/-- Replace the limit entry `i`. -/
def State.setLimit (s : State) (i : Fin 256) (x : LimitEntry) : State :=
  { s with limits := s.limits.set i x }

/-- The calibration entry `i`. -/
def State.cal (s : State) (i : Fin 32) : CalEntry := s.calibration[i]

/-- The grant entry of region `r`. -/
def State.grant (s : State) (r : Fin 32) : Grant := s.grants[r]

/-- Replace the grant entry of region `r`. -/
def State.setGrant (s : State) (r : Fin 32) (g : Grant) : State := { s with grants := s.grants.set r g }

/-- A port's record. -/
def State.port (s : State) : Port → PortRecord
  | .a => s.portA
  | .b => s.portB

/-- Replace a port's record. -/
def State.setPort (s : State) (p : Port) (x : PortRecord) : State :=
  match p with
  | .a => { s with portA := x }
  | .b => { s with portB := x }

/-- A port's panel cursor. -/
def State.cursor (s : State) : Port → Cursor
  | .a => s.panel.cursorA
  | .b => s.panel.cursorB

/-- Replace a port's panel cursor. -/
def State.setCursor (s : State) (p : Port) (x : Cursor) : State :=
  match p with
  | .a => { s with panel := { s.panel with cursorA := x } }
  | .b => { s with panel := { s.panel with cursorB := x } }

/-- The prompt record of seat `k`. -/
def State.prompt (s : State) (k : Fin 4) : PromptRecord := s.panel.prompts[k]

/-- Replace the prompt record of seat `k`. -/
def State.setPrompt (s : State) (k : Fin 4) (x : PromptRecord) : State :=
  { s with panel := { s.panel with prompts := s.panel.prompts.set k x } }

/-- The lamp of seat `k`. -/
def State.lamp (s : State) (k : Fin 4) : Lamp := s.panel.lamps[k]

/-- Replace the lamp of seat `k`. -/
def State.setLamp (s : State) (k : Fin 4) (x : Lamp) : State :=
  { s with panel := { s.panel with lamps := s.panel.lamps.set k x } }

/-- The debounce of a key. -/
def State.key (s : State) : Key → Debounce
  | .answer k .yes => s.panel.yesKeys[k]
  | .answer k .no => s.panel.noKeys[k]
  | .stop => s.panel.stopKey

/-- Replace the debounce of a key. -/
def State.setKey (s : State) (key : Key) (d : Debounce) : State :=
  match key with
  | .answer k .yes => { s with panel := { s.panel with yesKeys := s.panel.yesKeys.set k d } }
  | .answer k .no => { s with panel := { s.panel with noKeys := s.panel.noKeys.set k d } }
  | .stop => { s with panel := { s.panel with stopKey := d } }

/-- The debounce of a sensor of seat `k`. -/
def SeatRecord.sensor (r : SeatRecord) : Sensor → Debounce
  | .present => r.present
  | .confirm => r.confirm
  | .trip => r.trip

/-- Replace the debounce of a sensor. -/
def SeatRecord.setSensor (r : SeatRecord) (x : Sensor) (d : Debounce) : SeatRecord :=
  match x with
  | .present => { r with present := d }
  | .confirm => { r with confirm := d }
  | .trip => { r with trip := d }

/-- The rack time (R193). -/
def State.now (s : State) : RackTime := s.clock.ms

/-- Whether the start-up load has ended (R178, R192). -/
def State.isReady (s : State) : Bool := s.loader.phase = .ready

/-! ### Free values (log entries 2 and 11) -/

/-- `xs` in an order the spec leaves open, drawn from the free values from index `n` on; one element or none
has only one order. The first argument bounds the picks. -/
def shuffle {α : Type} : Nat → Nat → List α → List α
  | 0, _, xs => xs
  | _ + 1, _, [] => []
  | _ + 1, _, [x] => [x]
  | f + 1, n, x :: y :: rest =>
    let xs := x :: y :: rest
    let i := Config.freeChoice n % xs.length
    match xs[i]? with
    | none => xs
    | some z => z :: shuffle f (n + 1) (xs.eraseIdx i)

/-- `xs` in an order the spec leaves open. -/
def State.inOpenOrder {α : Type} (s : State) (xs : List α) : List α := shuffle xs.length s.draws xs

/-- The free values of an order of `n` things are used up. -/
def State.drawn (s : State) (n : Nat) : State := { s with draws := s.draws + n }

/-! ### Answers and the checks every command passes (R176, R178) -/

/-- Whether a port takes link transactions: not while the rack reset input or its own reset input is held
active (R189, R190). -/
def State.linkOpen (s : State) (p : Port) : Bool := s.loader.phase != .held && !(s.port p).resetActive

/-- The port answers (R176): chip select is active and the link receiver is ANSWERING. -/
def State.answer (s : State) (p : Port) (a : Answer) : State :=
  s.setPort p { s.port p with link := .answering a, select := true }

/-- A refused command: a status, no result, no effect (R178). -/
def refuse (s : State) (st : Status) : State × Answer := (s, { status := st, result := [] })

/-- A command done without a result. -/
def done (s : State) : State × Answer := (s, { status := .ok, result := [] })

/-- A command done with result bytes. -/
def doneWith (s : State) (bytes : List Byte) : State × Answer := (s, { status := .ok, result := bytes })

/-- A link command (R178): not taken while the link is not open; NOT_READY before the load has ended; else
what its own rule gives, answered on the caller's port. -/
def command (p : Port) (s : State) (body : State × Answer) : Result :=
  if !s.linkOpen p then .next s
  else if !s.isReady then .next (s.answer p { status := .notReady, result := [] })
  else .next (body.1.answer p body.2)

/-- The parameters, or BAD_PARAM (R178, stage 3). -/
def withArg {α : Type} (s : State) (arg : Option α) (body : α → State × Answer) : State × Answer :=
  match arg with
  | none => refuse s .badParam
  | some x => body x

/-- The ownership check of a changing seat command (R13). -/
def ifOwner (s : State) (p : Port) (k : Fin 4) (body : State × Answer) : State × Answer :=
  if (s.record k).owner = some p then body else refuse s .notOwner

/-- The ownership check of CLEAR_FAULT and CLEAR_RESULTS: an unowned seat's are taken from either port (R13). -/
def ifOwnerOrFree (s : State) (p : Port) (k : Fin 4) (body : State × Answer) : State × Answer :=
  if (s.record k).owner = some (otherPort p) then refuse s .notOwner else body

/-- A further condition of a command, with the status that refuses it. -/
def require (s : State) (cond : Bool) (st : Status) (body : State × Answer) : State × Answer :=
  if cond then body else refuse s st

/-! ### Notices (R183, R184) -/

/-- Posting a notice to one port (R183): the level is the port's; level 0 suppresses; a full queue discards
and sets the overflow flag; ATTN is judged. -/
def PortRecord.post (r : PortRecord) (n : Notice) : PortRecord :=
  let level := r.levels[n.kind.index]
  if level = 0 then r
  else if r.queue.length < Config.noticeDepth then
    { r with queue := r.queue ++ [{ n with level := level }],
             attn := judgeAttn (r.queue ++ [{ n with level := level }]) r.threshold }
  else { r with overflow := true, attn := judgeAttn r.queue r.threshold }

/-- Post to one port. -/
def State.post (s : State) (p : Port) (n : Notice) : State := s.setPort p ((s.port p).post n)

/-- Post to both ports: two postings (R184). -/
def State.postBoth (s : State) (n : Notice) : State := (s.post .a n).post .b n

/-- Post a seat notice: to the owner, or to both ports when the seat is unowned at this moment (R184). -/
def State.postSeat (s : State) (k : Fin 4) (n : Notice) : State :=
  match (s.record k).owner with
  | some p => s.post p n
  | none => s.postBoth n

/-- A notice record before a port gives it its level. -/
def State.notice (s : State) (kind : NoticeKind) (seat : Option (Fin 4)) (stepId : Option Word) (code : Nat)
    (count : Option Nat) : Notice :=
  { kind := kind, level := 0, seat := seat, stepId := stepId, code := BitVec.ofNat 8 code, count := count,
    time := s.now }

/-! ### Lamps (R160, R163) -/

/-- The effective mode of a seat lamp (R160). -/
def State.effectiveLamp (s : State) (k : Fin 4) : LampMode :=
  if (s.record k).state = .fault then .slow
  else if (s.prompt k).isOpen then .fast
  else (s.lamp k).mode

/-- A fresh blink period for the lamp of seat `k`. -/
def State.restartLamp (s : State) (k : Fin 4) : State := s.setLamp k { s.lamp k with phase := 0 }

/-- After a change that may reach the effective mode: a changed mode starts a fresh period (R160). -/
def State.relamp (s : State) (k : Fin 4) (before : LampMode) : State :=
  if s.effectiveLamp k = before then s else s.restartLamp k

/-- The saver is left; on leaving SLEEP every lamp starts a fresh period (R160, R163). -/
def State.leaveSaver (s : State) : State :=
  let t := { s with panel := { s.panel with saver := .none } }
  if s.panel.saver = .sleep then seatIds.foldl State.restartLamp t else t

/-! ### Seat transitions (R2, R8, R10) -/

/-- The record as it enters a state other than FAULT: both outputs as the state fixes them (R2), the cause
absent, the deadline as given (R1, R7). -/
def SeatRecord.enter (r : SeatRecord) (st : SeatState) (deadline : Option RackTime) : SeatRecord :=
  { r with state := st, cause := none, actuator := st.actuator, supply := st.supply, deadline := deadline }

/-- The record as it enters FAULT (R8, stages 3 and 4). -/
def SeatRecord.enterFault (r : SeatRecord) (c : Cause) : SeatRecord :=
  { r with state := .fault, cause := some c, actuator := c.faultActuator, supply := .off, deadline := none }

/-- A seat takes a state without a notice. -/
def State.moveSeat (s : State) (k : Fin 4) (st : SeatState) (deadline : Option RackTime) : State :=
  (s.setRecord k ((s.record k).enter st deadline)).relamp k (s.effectiveLamp k)

/-- A SEAT_STATE notice of seat `k`, with the number flushed where the transition flushes (R10). -/
def State.postState (s : State) (k : Fin 4) (flushed : Option Nat) : State :=
  s.postSeat k (s.notice .seatState (some k) none (s.record k).state.code flushed)

/-- A seat enters a state other than FAULT and posts its SEAT_STATE notice (R10). -/
def State.enterState (s : State) (k : Fin 4) (st : SeatState) (deadline : Option RackTime)
    (flushed : Option Nat) : State :=
  (s.moveSeat k st deadline).postState k flushed

/-! ### Outputs (R86 to R90) -/

/-- A word delivered to an analog output clamps to 4095 (R87). -/
def AnalogOut.take (o : AnalogOut) (w : Word) : AnalogOut :=
  { o with live := if w.toNat < 4096 then w.setWidth 12 else 4095 }

/-- The period a word gives a frequency output: 0 stops, 1 to 19 clamp to 20 (R88). -/
def freqPeriod (w : Word) : Word := if w = 0 then 0 else if w.toNat < 20 then 20 else w

/-- A word delivered to a frequency output: a stop cuts the cycle, a start from rest begins one, and a cycle
in progress completes with the period it began with (R88). -/
def FreqOut.take (o : FreqOut) (w : Word) : FreqOut :=
  let p := freqPeriod w
  if p = 0 then { o with live := 0, cycle := none }
  else
    { o with live := p, cycle := match o.cycle with
                                 | none => some { period := p.toNat, elapsed := 0 }
                                 | some c => some c }

/-- A word delivered to the digital lines: the high byte is the mask, the low byte the levels (R89). -/
def LinesOut.take (o : LinesOut) (w : Word) : LinesOut :=
  { o with live := (o.live &&& ~~~highByte w) ||| (lowByte w &&& highByte w) }

/-- A word delivered to an output; a frame slot is none of the five. -/
def Outputs.take (o : Outputs) (t : Target) (w : Word) : Outputs :=
  match t with
  | .ao0 => { o with ao0 := o.ao0.take w }
  | .ao1 => { o with ao1 := o.ao1.take w }
  | .fo0 => { o with fo0 := o.fo0.take w }
  | .fo1 => { o with fo1 := o.fo1.take w }
  | .dl => { o with dl := o.dl.take w }
  | .fs _ => o

/-- SET_OUTPUT stores the resulting live value as last set (R91). -/
def Outputs.noteSet (o : Outputs) (t : Target) : Outputs :=
  match t with
  | .ao0 => { o with ao0 := { o.ao0 with lastSet := some o.ao0.live } }
  | .ao1 => { o with ao1 := { o.ao1 with lastSet := some o.ao1.live } }
  | .fo0 => { o with fo0 := { o.fo0 with lastSet := some o.fo0.live } }
  | .fo1 => { o with fo1 := { o.fo1 with lastSet := some o.fo1.live } }
  | .dl => { o with dl := { o.dl with lastSet := some o.dl.live } }
  | .fs _ => o

/-- An output goes to its rest value (R69, R86). -/
def Outputs.rest (o : Outputs) (t : Target) : Outputs :=
  match t with
  | .ao0 => { o with ao0 := { o.ao0 with live := 0 } }
  | .ao1 => { o with ao1 := { o.ao1 with live := 0 } }
  | .fo0 => { o with fo0 := { o.fo0 with live := 0, cycle := none } }
  | .fo1 => { o with fo1 := { o.fo1 with live := 0, cycle := none } }
  | .dl => { o with dl := { o.dl with live := 0 } }
  | .fs _ => o

/-- Every output goes to rest (R9, R90). -/
def Outputs.restAll (o : Outputs) : Outputs :=
  ((((o.rest .ao0).rest .ao1).rest .fo0).rest .fo1).rest .dl

/-- The outputs of seat `k` go to rest. -/
def State.restOutputs (s : State) (k : Fin 4) : State := s.setOutputs k (s.seat k).outputs.restAll

/-- A word delivered into a frame slot's payload: move `made` of the block gives its low byte to position
2·made and its high byte to the next; the fifth and later moves deliver nothing (R76). -/
def FrameSlot.deliver (f : FrameSlot) (made : Nat) (w : Word) : FrameSlot :=
  if h : made < 4 then
    { f with payload := (f.payload.set (2 * made) (lowByte w) (by omega)).set (2 * made + 1) (highByte w) (by omega) }
  else f

/-- A moved word reaches its target (R76, R90). -/
def State.deliver (s : State) (k : Fin 4) (t : Target) (made : Nat) (w : Word) : State :=
  match t with
  | .fs f => s.setFrame k f ((s.frame k f).deliver made w)
  | t => s.setOutputs k ((s.seat k).outputs.take t w)

/-! ### Prompts (R155, R157) -/

/-- Display RAM address of a page and a column (R147). -/
def ramAddr (page column : Nat) : Nat := 128 * page + column

/-- A dot of the display RAM: bit j of the byte at page p and column c is dot row 8p + j of column c, 1 for lit
(R147). -/
def ramDot (ram : Memory 8) (row : Fin 64) (column : Fin 128) : Bool :=
  (Memory.read ram (ramAddr (row.val / 8) column.val)).getLsbD (row.val % 8)

/-- Whether the panel lights a dot, 64 rows of 128, row 0 on top (R147, R162). -/
def Panel.dot (p : Panel) (row : Fin 64) (column : Fin 128) : Bool :=
  match p.shows with
  | .ram => ramDot p.ram row column
  | .allLit => true
  | .dark => false

/-- The column words of a prompt's pane: the bitmap up to the width, then 0 (R155). -/
def bitmapWords (pattern : Memory 16) (pr : Prompt) : List Word :=
  Memory.readSpan pattern pr.addr.toNat pr.width ++ List.replicate (128 - pr.width) 0

/-- The pane of seat `k` takes column words: low bytes to the upper page, high bytes to the lower (R155). -/
def fillPane (ram : Memory 8) (k : Fin 4) (words : List Word) : Memory 8 :=
  Memory.writeSpan (Memory.writeSpan ram (ramAddr (2 * k.val) 0) (words.map lowByte))
    (ramAddr (2 * k.val + 1) 0) (words.map highByte)

/-- The bitmap of a prompt is copied into the pane of seat `k` (R155). -/
def State.copyPane (s : State) (k : Fin 4) (pr : Prompt) : State :=
  { s with panel := { s.panel with ram := fillPane s.panel.ram k (bitmapWords s.pattern pr) } }

/-- The display shows the RAM and the saver is left (R155). -/
def State.showRam (s : State) : State :=
  { s.leaveSaver with panel := { s.leaveSaver.panel with display := .on, allPoints := .normal } }

/-- A prompt opens (R155): the pane is copied, the record opens, the display shows the RAM and the saver is
left, the lamp becomes FAST. -/
def State.openPrompt (s : State) (k : Fin 4) (pr : Prompt) : State :=
  (((s.copyPane k pr).setPrompt k { isOpen := true, expected := some pr.expected, width := some pr.width }).showRam).relamp
    k (s.effectiveLamp k)

/-- A prompt closes, if it is open; the pane keeps its content and the lamp falls back (R156, R157). -/
def State.closePrompt (s : State) (k : Fin 4) : State :=
  (s.setPrompt k { isOpen := false, expected := none, width := none }).relamp k (s.effectiveLamp k)

/-! ### Results (R168, R169) -/

/-- Append an entry to a result store (R168). -/
def ResultStore.append (r : ResultStore) (e : ResultEntry) : ResultStore :=
  let summary := r.summary.worse e.outcome.summaryClass
  if r.entries.length < Config.resultDepth then
    { r with entries := r.entries ++ [e], summary := summary }
  else { r with truncated := true, summary := summary }

/-- Hand an entry to the result store of seat `k` and post STEP_DONE (R40). -/
def State.recordResult (s : State) (k : Fin 4) (e : ResultEntry) : State :=
  let t := s.setResults k ((s.seat k).results.append e)
  t.postSeat k (t.notice .stepDone (some k) (some e.stepId) e.outcome.rank none)

end Machine
end Sys2Proof
end

