-- ==== Sys2Proof/Machine/Verdict.lean ====
section
/-! DEFINITION. The verdict engine's arithmetic (R121 to R130): calibration, filter, run count, extreme, and
the judgement of a measurement at window expiry. All of it on whole numbers. -/

namespace Sys2Proof
namespace Machine

/-- Calibration (R122): difference times gain over 4096, rounded half up, saturated. -/
def calibrate (raw : BitVec 12) (cal : CalEntry) : Int :=
  max (-32768) (min 32767 ((((raw.toNat : Int) - cal.offset) * cal.gain.toNat + 2048) / 4096))

/-- The filter (R123): the first sample is the seed; later ones move y by the difference over 2^k, rounded
toward minus infinity. -/
def filterValue (shift : Nat) (y : Option Int) (c : Int) : Int :=
  match y with
  | none => c
  | some y => y + (c - y) / (2 ^ shift : Nat)

/-- Whether a zone is in range (R125). -/
def Zone.inRange : Zone → Bool
  | .inside | .marginal => true
  | .none | .outLow | .outHigh => false

/-- The run count and the run-marginal flag after a zone (R125). -/
def runAfter (z : Zone) (n : Nat) (flag : Bool) : Nat × Bool :=
  match z with
  | .inside => (n + 1, flag)
  | .marginal => (n + 1, true)
  | .outLow | .outHigh => (0, false)
  | .none => (n, flag)

/-- The extreme after a filtered value, in the peak modes (R127). -/
def extremeAfter (mode : LimitMode) (old : Option Int) (y : Int) : Option Int :=
  match mode, old with
  | .settle, _ => old
  | .peakMax, none | .peakMin, none => some y
  | .peakMax, some x => some (max x y)
  | .peakMin, some x => some (min x y)

/-- A slot that latches takes no further sample (R112, R126). -/
def MeasSlot.latch (m : MeasSlot) : MeasSlot := { m with state := .latched, nextDue := none, due := false }

/-- One calibrated value on a slot's record (R121, stages 2 to 4). -/
def MeasSlot.takeSample (m : MeasSlot) (l : Limit) (c : Int) : MeasSlot :=
  let y := filterValue l.shift m.y c
  let z := zoneOf l y
  let filtered := { m with y := some y, zone := z }
  match l.mode with
  | .settle =>
    let run := runAfter z m.run m.runMarginal
    let counted := { filtered with run := run.1, runMarginal := run.2 }
    if run.1 = l.settle then counted.latch else counted
  | .peakMax | .peakMin => { filtered with extreme := extremeAfter l.mode m.extreme y }

/-- The report of a slot that has latched (R126, R130). -/
def MeasSlot.latchReport (m : MeasSlot) : MeasReport where
  verdict := if m.runMarginal then .marginal else .pass
  value := m.y
  samples := m.samples

/-- The verdict of a peak part from the zone of its extreme (R128). -/
def peakVerdict : Zone → StepOutcome
  | .inside => .pass
  | .marginal => .marginal
  | .outLow => .failLow
  | .outHigh => .failHigh
  | .none => .failTimeout

/-- The verdict of a SETTLE part at expiry from its last zone (R128). -/
def settleVerdict : Zone → StepOutcome
  | .outLow => .failLow
  | .outHigh => .failHigh
  | .inside | .marginal | .none => .failTimeout

/-- The judgement of an open measurement part at window expiry (R128). -/
def MeasSlot.expiryReport (m : MeasSlot) (l : Limit) : MeasReport :=
  match l.mode with
  | .settle =>
    { verdict := match m.y with
                 | none => .failTimeout
                 | some _ => settleVerdict m.zone,
      value := m.y, samples := m.samples }
  | .peakMax | .peakMin =>
    { verdict := match m.extreme with
                 | none => .failTimeout
                 | some x => peakVerdict (zoneOf l x),
      value := m.extreme, samples := m.samples }

end Machine
end Sys2Proof
end

