-- ==== Sys2Proof/Machine/Acquisition.lean ====
section
/-! DEFINITION. The acquisition unit (R109 to R114): binding and freeing slots, gates, due times, the
converter and its arbiter. -/

namespace Sys2Proof
namespace Machine

/-- The limit a slot is bound under, as the limit table holds it. -/
def State.slotLimit (s : State) (m : Fin 6) : Option Limit :=
  match (s.slot m).limit with
  | none => none
  | some l => (s.limit l).limit

/-- The order in which the arbiter looks at the slots, from the one after the pointer (R113). -/
def rotationOrder (p : Fin 6) : List (Fin 6) := [p + 1, p + 2, p + 3, p + 4, p + 5, p]

/-- The due slot that comes first after the pointer (R113). -/
def State.nextSlot (s : State) : Option (Fin 6) := (rotationOrder s.rotation).find? (fun m => (s.slot m).due)

/-- Input Mi of seat k is input 8k + i of the rack (R103). -/
def rackInput (k : Fin 4) (i : Fin 8) : Fin 32 := ⟨8 * k.val + i.val, by omega⟩

/-- The voltage at an input of the rack, in volts (R103). -/
def State.inputVolts (s : State) (i : Fin 32) : Rat := s.inputs[i]

/-- The raw code of a voltage: 0 at 0 V, one code for each 2.5 V / 4096 above it, 4095 above the span and 0 below
it (R103; log entry 9). -/
def rawCode (volts : Rat) : BitVec 12 := BitVec.ofNat 12 (min 4095 (volts / (5 / 2) * 4096).floor.toNat)

/-- The start of a conversion, which samples the input (R103, R113). -/
def State.startConversion (s : State) (m : Fin 6) : State :=
  let slot := s.slot m
  match slot.seat, slot.input, s.slotLimit m with
  | some k, some i, some l =>
    { s.setSlot m { slot with due := false, nextDue := slot.nextDue.map (fun t => msAfter t l.interval) } with
      rotation := m,
      converter := .converting m slot.binding (rackInput k i) (s.clock.afterUs Config.conversionUs)
        (rawCode (s.inputVolts (rackInput k i))) }
  | _, _, _ => s

/-- The converter arbiter (R113). -/
def State.converterArbiter (s : State) : State :=
  match s.converter with
  | .converting _ _ _ _ _ => s
  | .idle =>
    match s.nextSlot with
    | none => s
    | some m => s.startConversion m

/-- The gate of a slot opens; in any state but GATED nothing happens (R111). The converter arbiter runs after each
opening, of the several of one step start as well (log entry 34). -/
def State.openGate (s : State) (m : Fin 6) : State :=
  let slot := s.slot m
  if slot.state = .gated then
    (s.setSlot m { slot with state := .sampling, gateTime := none, nextDue := some s.now, due := true }).converterArbiter
  else s

/-- The gate time a gate gives, present only for a DELAY that can still open (R110). -/
def Gate.time (g : Gate) (start : RackTime) (window : Nat) : Option RackTime :=
  match g with
  | .delay d => if 1 ≤ d ∧ d < window then some (msAfter start d) else none
  | .start | .mark _ => none

/-- Whether a gate opens with the bind (R110, R111). -/
def Gate.opensAtBind : Gate → Bool
  | .start => true
  | .delay d => d = 0
  | .mark _ => false

/-- One slot more is bound under a limit entry (R120). -/
def State.useLimit (s : State) (i : Fin 256) : State := s.setLimit i { s.limit i with uses := (s.limit i).uses + 1 }

/-- One slot fewer is bound under a limit entry (R120). -/
def State.unuseLimit (s : State) (i : Fin 256) : State :=
  s.setLimit i { s.limit i with uses := (s.limit i).uses - 1 }

/-- The lowest-numbered free slot (R110). -/
def State.freeSlot? (s : State) : Option (Fin 6) := slotIds.find? (fun m => (s.slot m).state = .free)

/-- The number of free slots (R29). -/
def State.freeSlotCount (s : State) : Nat := (slotIds.filter (fun m => (s.slot m).state = .free)).length

/-- The record of a slot just bound (R110). -/
def MeasSlot.bound (k : Fin 4) (i : Fin 2) (x : Measurement) (start : RackTime) (window binding : Nat) : MeasSlot :=
  { MeasSlot.free with
    state := .gated, seat := some k, measurement := some i, input := some x.input, limit := some x.limit,
    gate := some x.gate, gateTime := x.gate.time start window, binding := binding }

/-- A measurement is bound to a slot, and its gate opens if it opens at the bind (R110). -/
def State.bindSlot (s : State) (m : Fin 6) (k : Fin 4) (i : Fin 2) (x : Measurement) (start : RackTime)
    (window : Nat) : State :=
  let bound := (s.setSlot m (MeasSlot.bound k i x start window s.bindings)).useLimit x.limit
  let counted := { bound with bindings := s.bindings + 1 }
  if x.gate.opensAtBind then counted.openGate m else counted

/-- A slot is freed (R110); a conversion in progress goes on. -/
def State.freeSlot (s : State) (m : Fin 6) : State :=
  match (s.slot m).limit with
  | none => s.setSlot m MeasSlot.free
  | some l => (s.unuseLimit l).setSlot m MeasSlot.free

/-- Whether a slot waits for the mark of entry `e` of seat `k`'s running step (R77, R111). -/
def MeasSlot.awaitsMark (m : MeasSlot) (k : Fin 4) (e : Fin 3) : Bool :=
  m.state = .gated && m.seat = some k && m.gate = some (.mark e)

/-- `xs` taken one after another in an order the spec leaves open (log entry 11). -/
def State.takeInOpenOrder {α : Type} (s : State) (xs : List α) (f : State → α → State) : State :=
  match xs with
  | [] => s
  | [x] => f s x
  | x :: y :: rest => (s.inOpenOrder (x :: y :: rest)).foldl f (s.drawn (x :: y :: rest).length)

/-- A mark opens the gates that wait for it, each as its own event, in either order (R111). -/
def State.openMarkGates (s : State) (k : Fin 4) (e : Fin 3) : State :=
  s.takeInOpenOrder (slotIds.filter (fun m => (s.slot m).awaitsMark k e)) State.openGate

/-- The due event of a slot (R112). -/
def State.takeSlotDue (s : State) (m : Fin 6) : State :=
  (s.setSlot m { s.slot m with due := true }).converterArbiter

/-- Whether a slot's due event is to be taken (R112). -/
def State.slotDueReady (s : State) (m : Fin 6) : Bool :=
  (s.slot m).state = .sampling && !(s.slot m).due &&
    match (s.slot m).nextDue with
    | none => false
    | some t => msReached s.now t

/-- Whether a slot's gate time has been reached (R111). -/
def State.gateReady (s : State) (m : Fin 6) : Bool :=
  (s.slot m).state = .gated &&
    match (s.slot m).gateTime with
    | none => false
    | some t => msReached s.now t

/-- Whether the conversion in progress serves slot `m` and has reached its completion (R113). -/
def State.conversionReady (s : State) (m : Fin 6) : Bool :=
  match s.converter with
  | .idle => false
  | .converting n _ _ t _ => n = m && Instant.reached s.clock t

end Machine
end Sys2Proof
end

