-- ==== Sys2Proof/Machine/Channels.lean ====
section
/-! DEFINITION. The channel pool (R62 to R83): binding and freeing, use counts, triggers, the move, marks and
transaction ends. A refused move is reported to the caller; what follows is in Machine/Sequencer.lean. -/

namespace Sys2Proof
namespace Machine

/-- The program a channel runs, as the program table holds it. -/
def State.channelProgram (s : State) (c : Fin 8) : Option Program :=
  match (s.channel c).program with
  | none => none
  | some i => (s.program i).program

/-- Whether a channel is bound to seat `k` (R66). -/
def Channel.onSeat (ch : Channel) (k : Fin 4) : Bool := ch.state != .free && ch.seat = some k

/-- Whether a channel serves an entry of the running step of seat `k`. -/
def Channel.servesStep (ch : Channel) (k : Fin 4) : Bool := ch.onSeat k && ch.entry.isSome && !ch.kept

/-- The kept channel of seat `k` (R39, R81). -/
def State.keptChannel (s : State) (k : Fin 4) : Option (Fin 8) :=
  ids8.find? (fun c => (s.channel c).onSeat k && (s.channel c).kept)

/-- The channel that drives a target of seat `k` (R67, R86). -/
def State.driver (s : State) (k : Fin 4) (t : Target) : Option (Fin 8) :=
  ids8.find? (fun c => (s.channel c).onSeat k && (s.channel c).target = some t)

/-- The lowest-numbered free channel (R34). -/
def State.freeChannel? (s : State) : Option (Fin 8) := ids8.find? (fun c => (s.channel c).state = .free)

/-- The number of free channels (R29). -/
def State.freeChannelCount (s : State) : Nat := (ids8.filter (fun c => (s.channel c).state = .free)).length

/-- One channel more runs a program (R65). -/
def State.useProgram (s : State) (i : Fin 48) : State :=
  s.setProgram i { s.program i with uses := (s.program i).uses + 1 }

/-- One channel fewer runs a program (R65). -/
def State.unuseProgram (s : State) (i : Fin 48) : State :=
  s.setProgram i { s.program i with uses := (s.program i).uses - 1 }

/-- The record of a channel just bound (R68). -/
def Channel.bound (k : Fin 4) (e : Fin 3) (x : ChannelEntry) (p : Program) (start : RackTime) : Channel where
  state := .armed
  seat := some k
  entry := some e
  target := some x.target
  trigger := some x.trigger
  program := some x.program
  address := p.start
  remaining := p.count
  shadow := none
  kept := false
  nextTimer := match x.trigger with
               | .timer _ => some start
               | .frame _ | .chain _ => none
  outstanding := 0
  made := 0

/-- A channel entry is bound to a channel (R68). -/
def State.bindChannel (s : State) (c : Fin 8) (k : Fin 4) (e : Fin 3) (x : ChannelEntry) (start : RackTime) : State :=
  match (s.program x.program).program with
  | none => s
  | some p => (s.setChannel c (Channel.bound k e x p start)).useProgram x.program

/-- The output a channel drives goes to rest (R69, stage 3). -/
def State.restTarget (s : State) (ch : Channel) : State :=
  match ch.seat, ch.target with
  | some k, some t => s.setOutputs k ((s.seat k).outputs.rest t)
  | _, _ => s

/-- The program a channel runs has one channel fewer (R69, stage 2). -/
def State.unuseBy (s : State) (ch : Channel) : State :=
  match ch.program with
  | none => s
  | some i => s.unuseProgram i

/-- A channel is freed (R69). -/
def State.freeChannel (s : State) (c : Fin 8) : State :=
  ((s.unuseBy (s.channel c)).restTarget (s.channel c)).setChannel c Channel.free

/-! ### The walk (R75) -/

/-- The address after a move: the offset in the aligned block of 2^w words steps up or down around the block. -/
def advance (p : Program) (a : PatternAddr) : PatternAddr :=
  let size := 2 ^ p.wrap
  let offset := a.toNat % size
  let base := a.toNat - offset
  match p.direction with
  | .up => BitVec.ofNat 14 (base + (offset + p.step) % size)
  | .down => BitVec.ofNat 14 (base + (offset + (size - p.step % size)) % size)

/-! ### Triggers (R70) -/

/-- Whether a trigger asks a channel for a block, or is ignored (R70). -/
def Channel.takesTrigger (ch : Channel) : Bool := (ch.state = .armed || ch.state = .running) && ch.outstanding = 0

/-- A trigger at a channel whose program has block size `b` (R70). -/
def Channel.request (ch : Channel) (b : Nat) : Channel :=
  if ch.takesTrigger then { ch with state := .running, outstanding := min b ch.remaining, made := 0 } else ch

/-- A trigger at channel `c`. -/
def State.trigger (s : State) (c : Fin 8) : State :=
  match s.channelProgram c with
  | none => s
  | some p => s.setChannel c ((s.channel c).request p.block)

/-! ### The move (R74) -/

/-- The check of a move: the region of the address against the owner of the seat (R58). -/
def State.moveGranted (s : State) (c : Fin 8) (k : Fin 4) : Bool :=
  match (s.record k).owner with
  | none => false
  | some p => (s.grant (regionOf (s.channel c).address)).grants p

/-- The step id of the running step a channel serves, absent for a kept channel (R78). -/
def State.stepIdOf (s : State) (c : Fin 8) (k : Fin 4) : Option Word :=
  if (s.channel c).servesStep k then
    match (s.seat k).running with
    | none => none
    | some r => some r.step.id
  else none

/-- The gates that wait for the mark of the entry a channel serves open; a kept channel serves none (R77, R111). -/
def State.openMarked (s : State) (c : Fin 8) (k : Fin 4) : State :=
  match (s.channel c).entry with
  | some e => if (s.channel c).servesStep k then s.openMarkGates k e else s
  | none => s

/-- A mark is raised (R77): first the gates, then the notice. -/
def State.raiseMark (s : State) (c : Fin 8) (k : Fin 4) (p : Program) : State :=
  let opened := s.openMarked c k
  if p.markNotice then
    opened.postSeat k (opened.notice .mark (some k) (opened.stepIdOf c k) 0 (some c.val))
  else opened

/-- The CHAIN channels of the same step that name entry `e` take a trigger (R73, R79). -/
def State.chainFrom (s : State) (k : Fin 4) (e : Fin 3) : State :=
  ids8.foldl (fun t c => if (t.channel c).servesStep k && (t.channel c).trigger = some (.chain e) then t.trigger c
                         else t) s

/-- The effects of a transaction end on the channel's own record (R79, stages 1 and 2). -/
def Channel.reload (ch : Channel) (count : Nat) : Channel :=
  { ch with address := ch.shadow.getD ch.address, shadow := none, remaining := count }

/-- The CHAIN channels that name the entry a channel serves take a trigger; a kept channel serves none (R79, stage 3). -/
def State.chainEnd (s : State) (c : Fin 8) (k : Fin 4) : State :=
  match (s.channel c).entry with
  | some e => if (s.channel c).servesStep k then s.chainFrom k e else s
  | none => s

/-- The end of a transaction (R79). -/
def State.endTransaction (s : State) (c : Fin 8) (k : Fin 4) (p : Program) : State :=
  let chained := (s.setChannel c ((s.channel c).reload p.count)).chainEnd c k
  match p.mode with
  | .oneShot => chained.setChannel c { chained.channel c with state := .done }
  | .repeat => chained

/-- A channel after its word was delivered (R74, stages 4 and 5). -/
def Channel.counted (ch : Channel) (p : Program) : Channel :=
  { ch with state := .running, remaining := ch.remaining - 1, address := advance p ch.address, made := ch.made + 1 }

/-- A granted move (R74, stages 2 to 8). -/
def State.makeMove (s : State) (c : Fin 8) (k : Fin 4) (t : Target) (p : Program) : State :=
  let ch := s.channel c
  let delivered := s.deliver k t ch.made (Memory.read s.pattern ch.address.toNat)
  let counted := delivered.setChannel c (ch.counted p)
  let marked := if (ch.counted p).remaining = p.mark then counted.raiseMark c k p else counted
  let ended := if (ch.counted p).remaining = 0 then marked.endTransaction c k p else marked
  ended.setChannel c { ended.channel c with outstanding := ch.outstanding - 1 }

/-- A refused move: outstanding becomes 0, all else stays (R74, stage 1). -/
def State.refuseMove (s : State) (c : Fin 8) : State := s.setChannel c { s.channel c with outstanding := 0 }

/-- One move of channel `c`, and whether it was refused (R74); a FREE channel makes none (R70). -/
def State.moveOnce (s : State) (c : Fin 8) : State × Bool :=
  if (s.channel c).state = .free then (s, false)
  else
    match (s.channel c).seat, (s.channel c).target, s.channelProgram c with
    | some k, some t, some p =>
      if s.moveGranted c k then (s.makeMove c k t p, false) else (s.refuseMove c, true)
    | _, _, _ => (s, false)

/-- A channel whose block was refused before any move was made has the state it had before the trigger: only a
trigger that makes moves sets RUNNING (R66, R83; log entry 10). -/
def Channel.unmoved (ch : Channel) (st : ChannelState) : Channel :=
  if ch.state = .running ∧ ch.made = 0 then { ch with state := st } else ch

/-- A block and whether a move of it was refused; a refused block that made no move leaves the state `st`. -/
def State.blockEnd (r : State × Bool) (c : Fin 8) (st : ChannelState) : State × Bool :=
  if r.2 then (r.1.setChannel c ((r.1.channel c).unmoved st), true) else r

/-- A trigger and the first move of the block it starts (log entry 10), and whether the move was refused. -/
def State.triggerAndMove (s : State) (c : Fin 8) : State × Bool :=
  if (s.channel c).takesTrigger then State.blockEnd ((s.trigger c).moveOnce c) c (s.channel c).state else (s, false)

/-- The moves of a block, one after another, until it is done or refused. -/
def State.runBlock (s : State) (c : Fin 8) : Nat → State × Bool
  | 0 => (s, false)
  | n + 1 =>
    if (s.channel c).outstanding = 0 then (s, false)
    else if (s.moveOnce c).2 then s.moveOnce c
    else State.runBlock (s.moveOnce c).1 c n

/-- The next timer trigger rises by the period (R71). -/
def Channel.rearm (ch : Channel) : Channel :=
  match ch.trigger with
  | some (.timer period) => { ch with nextTimer := ch.nextTimer.map (fun t => msAfter t period) }
  | _ => ch

/-- A TIMER channel's trigger (R71), with the first move; whether that move was refused. -/
def State.takeTimer (s : State) (c : Fin 8) : State × Bool :=
  (s.setChannel c (s.channel c).rearm).triggerAndMove c

/-- Whether a TIMER channel's next trigger has been reached (R71). -/
def State.timerReady (s : State) (c : Fin 8) : Bool :=
  (s.channel c).state != .free &&
    match (s.channel c).nextTimer with
    | none => false
    | some t => msReached s.now t

/-- Whether a channel has a move of its block to make (R74, stage 8). -/
def State.moveReady (s : State) (c : Fin 8) : Bool :=
  (s.channel c).outstanding != 0 && ((s.channel c).state = .armed || (s.channel c).state = .running)

/-- A channel becomes the seat's kept channel (R81). -/
def Channel.toKept (ch : Channel) : Channel := { ch with entry := none, kept := true }

end Machine
end Sys2Proof
end

