-- ==== Sys2Proof/Machine/Frames.lean ====
section
/-! DEFINITION. The frame links (R94 to R100) and the capture units (R132 to R144): schedules, the transmit
arbiter, the examination of a frame and its storage. -/

namespace Sys2Proof
namespace Machine

/-! ### Schedules (R96, R99) -/

/-- A slot's schedule starts afresh: nothing pending, the first due one period away if it is enabled (R96). -/
def FrameSlot.schedule (f : FrameSlot) (now : Instant) : FrameSlot :=
  { f with pending := false, nextDue := if f.enable then some (now.afterMs f.period) else none }

/-- A slot's schedule stops (R99). -/
def FrameSlot.unschedule (f : FrameSlot) : FrameSlot := { f with pending := false, nextDue := none }

/-- Change every frame slot of seat `k`. -/
def State.eachFrame (s : State) (k : Fin 4) (f : FrameSlot → FrameSlot) : State :=
  ids8.foldl (fun t i => t.setFrame k i (f (t.frame k i))) s

/-- The schedules of seat `k` start as it enters TESTING (R96). -/
def State.scheduleFrames (s : State) (k : Fin 4) : State := s.eachFrame k (fun f => f.schedule s.clock)

/-- Frame transmission is switched off (R9, R99). -/
def State.unscheduleFrames (s : State) (k : Fin 4) : State := s.eachFrame k FrameSlot.unschedule

/-! ### The transmit arbiter (R97) -/

/-- The better of two pending slots: the lower identifier, then the lower number. -/
def betterSlot (fs : Vector FrameSlot 8) (best : Option (Fin 8)) (f : Fin 8) : Option (Fin 8) :=
  if fs[f].pending then
    match best with
    | none => some f
    | some b => if fs[f].ident.toNat < fs[b].ident.toNat then some f else some b
  else best

/-- The pending slot the arbiter chooses (R97). -/
def chooseSlot (fs : Vector FrameSlot 8) : Option (Fin 8) := ids8.foldl (betterSlot fs) none

/-- The bytes a slot sends: payload positions 0 to length − 1 (R97). -/
def FrameSlot.sentBytes (f : FrameSlot) : List Byte := f.payload.toList.take f.length

/-- The transmission time of a frame in microseconds (R97). -/
def frameTime (bytes : Nat) : Nat := Config.frameBaseUs + Config.frameByteUs * bytes

/-- Whether a channel is triggered by slot `f` of seat `k` (R72). -/
def Channel.frameTriggered (ch : Channel) (k : Fin 4) (f : Fin 8) : Bool :=
  ch.onSeat k && ch.trigger = some (.frame f)

/-- One channel's share of a FRAME trigger (R97, stage 2): a channel on the slot itself makes its whole block,
the others are asked for theirs. Beside the state stands the channel whose move was refused. -/
def frameTriggerOne (k : Fin 4) (f : Fin 8) (acc : State × Option (Fin 8)) (c : Fin 8) : State × Option (Fin 8) :=
  let ch := acc.1.channel c
  if ch.frameTriggered k f then
    if ch.target = some (.fs f) && ch.takesTrigger then
      let asked := acc.1.trigger c
      let moved := State.blockEnd (asked.runBlock c (asked.channel c).outstanding) c ch.state
      (moved.1, if moved.2 then some c else acc.2)
    else (acc.1.trigger c, acc.2)
  else acc

/-- The FRAME trigger of slot `f` (R97, stage 2). -/
def State.frameTrigger (s : State) (k : Fin 4) (f : Fin 8) : State × Option (Fin 8) :=
  ids8.foldl (frameTriggerOne k f) (s, none)

/-- The link takes the frame for sending (R97, stages 3 and 4; the link is SENDING from stage 1 on). -/
def State.sendFrame (s : State) (k : Fin 4) (f : Fin 8) : State :=
  let bytes := (s.frame k f).sentBytes
  s.setLink k (.sending f (s.frame k f).ident bytes (s.clock.afterUs (frameTime bytes.length)))

/-- The start of a transmission (R97), and the channel whose move was refused. -/
def State.startTransmission (s : State) (k : Fin 4) (f : Fin 8) : State × Option (Fin 8) :=
  let cleared := s.setFrame k f { s.frame k f with pending := false }
  let triggered := cleared.frameTrigger k f
  (triggered.1.sendFrame k f, triggered.2)

/-- The transmit arbiter (R97): it starts a transmission only while the link is IDLE and the seat in TESTING. -/
def State.transmitArbiter (s : State) (k : Fin 4) : State × Option (Fin 8) :=
  match (s.seat k).link with
  | .sending _ _ _ _ => (s, none)
  | .idle =>
    if (s.record k).state = .testing then
      match chooseSlot (s.seat k).frames with
      | none => (s, none)
      | some f => s.startTransmission k f
    else (s, none)

/-- A due of a slot (R96): it becomes pending, or the due is lost; next due rises by the period. -/
def FrameSlot.takeDue (f : FrameSlot) : FrameSlot :=
  { f with pending := true, nextDue := f.nextDue.map (fun t => t.afterMs f.period) }

/-- Whether a slot's due time has been reached (R96). -/
def State.frameDueReady (s : State) (k : Fin 4) (f : Fin 8) : Bool :=
  match (s.frame k f).nextDue with
  | none => false
  | some t => Instant.reached s.clock t

/-- The slot in flight whose completion has been reached (R98). -/
def State.completedSlot (s : State) (k : Fin 4) : Option (Fin 8) :=
  match (s.seat k).link with
  | .idle => none
  | .sending f _ _ t => if Instant.reached s.clock t then some f else none

/-- The outcome of a transmission is recorded and the link becomes IDLE (R98). -/
def State.endTransmission (s : State) (k : Fin 4) (f : Fin 8) (ack : Bool) : State :=
  (s.setFrame k f { s.frame k f with last := if ack then .ack else .noAck }).setLink k .idle

/-! ### Reception (R135, R140 to R144) -/

/-- Whether an examined frame counts (R141, R142). -/
def Expectation.counts (e : Expectation) (afterSeen : Bool) (data : List Byte) : Bool :=
  e.pattern.matches data && (e.after.isNone || afterSeen)

/-- The after-seen flag after an examined frame (R142); without an after pattern it stays. -/
def Expectation.seenAfter (e : Expectation) (afterSeen : Bool) (data : List Byte) : Bool :=
  match e.after with
  | none => afterSeen
  | some p => p.matches data

/-- The verdict a counted frame gives, if it decides (R143). -/
def Expectation.decides (e : Expectation) (count : Nat) : Option StepOutcome :=
  match e.mode with
  | .present => if count = e.required then some .pass else none
  | .absent => some .failPattern

/-- The examination of one frame against an expectation (R141 to R143), and the report it gives. -/
def Capture.examineFor (c : Capture) (e : Expectation) (data : List Byte) : Capture × Option ExpectReport :=
  let seen := e.seenAfter c.afterSeen data
  if e.counts c.afterSeen data then
    let counted := { c with matchCount := c.matchCount + 1, afterSeen := seen }
    match e.decides (c.matchCount + 1) with
    | none => (counted, none)
    | some v => ({ counted with expectState := .decided, verdict := some v },
                 some { verdict := v, count := c.matchCount + 1 })
  else ({ c with afterSeen := seen }, none)

/-- The examination stage of a reception (R135): in WATCHING, for a frame whose identifier passes. -/
def Capture.examine (c : Capture) (ident : BitVec 11) (data : List Byte) : Capture × Option ExpectReport :=
  if c.expectState = .watching then
    match c.expectation with
    | none => (c, none)
    | some e => if identMatch e.ident e.mask ident then c.examineFor e data else (c, none)
  else (c, none)

/-- The storage stage of a reception (R135). -/
def Capture.store (c : Capture) (ident : BitVec 11) (data : List Byte) (now : RackTime) : Capture :=
  match firstFilter c.filters ident with
  | none => c
  | some f =>
    if 8 < data.length && !c.acceptLong then c
    else if c.queue.length < Config.captureDepth then
      { c with queue := c.queue ++ [{ ident := ident, data := data, time := now, filter := f }] }
    else { c with overflow := true }

/-- The expectation of a starting step is watched from now on (R35, R140). -/
def Capture.watch (c : Capture) (e : Expectation) : Capture :=
  { c with expectState := .watching, expectation := some e, matchCount := 0, afterSeen := false, verdict := none }

/-- The expectation stops (R39, R44, R140); the count and the flag keep their last values. -/
def Capture.stop (c : Capture) : Capture :=
  { c with expectState := .inactive, expectation := none, verdict := none }

/-- The judgement of an open expectation at window expiry (R144). -/
def Capture.expiryReport (c : Capture) (e : Expectation) : ExpectReport where
  verdict := match e.mode with
             | .present => .failPattern
             | .absent => if c.matchCount = 0 then .pass else .failPattern
  count := c.matchCount

end Machine
end Sys2Proof
end

