-- ==== Sys2Proof/Machine/Sequencer.lean ====
section
/-! DEFINITION. The step sequencer and the seat transitions steps cause (R8, R9, R17, R18, R28 to R47, R83):
need, start, end, abort, the wait list, and what leaves TESTING. -/

namespace Sys2Proof
namespace Machine

/-! ### Need (R29) -/

/-- Whether a step replaces the kept channel of its seat (R29). -/
def State.replacesKept (s : State) (k : Fin 4) (st : Step) : Option (Fin 8) :=
  match s.keptChannel k with
  | none => none
  | some c => if st.entries.any (fun e => (s.channel c).target = some e.target) then some c else none

/-- The need of a step: channels and slots (R29). -/
def State.need (s : State) (k : Fin 4) (st : Step) : Nat × Nat :=
  (st.entries.length - (if (s.replacesKept k st).isSome then 1 else 0), st.measurements.length)

/-- The need of the head step; 0 and 0 with an empty queue (log entry 18). -/
def State.headNeed (s : State) (k : Fin 4) : Nat × Nat :=
  match (s.seat k).queue with
  | [] => (0, 0)
  | st :: _ => s.need k st

/-- Whether the need of the head step is covered (R29). -/
def State.covered (s : State) (k : Fin 4) : Bool :=
  decide ((s.headNeed k).1 ≤ s.freeChannelCount) && decide ((s.headNeed k).2 ≤ s.freeSlotCount)

/-! ### Parts and outcomes (R36, R38) -/

/-- The verdicts given so far, in record order (R36). -/
def Running.verdicts (r : Running) : List (Option StepOutcome) :=
  r.measReports.map (fun m => m.map (·.verdict)) ++
    (if r.step.expectation.isSome then [r.expectReport.map (·.verdict)] else []) ++
    (if r.step.prompt.isSome then [r.promptReport.map (·.verdict)] else [])

/-- Whether every part has its verdict (R36). -/
def Running.complete (r : Running) : Bool := r.verdicts.all (·.isSome)

/-- The deciding parts of the measurements, from measurement 0 on. -/
def measParts : List DecidingPart := [.measurement0, .measurement1]

/-- The parts with their verdicts, in record order (R36, R38). -/
def Running.judged (r : Running) : List (DecidingPart × StepOutcome) :=
  (measParts.zip r.measReports).filterMap (fun x => x.2.map (fun m => (x.1, m.verdict))) ++
    (match r.expectReport with
     | none => []
     | some e => [(.expectation, e.verdict)]) ++
    (match r.promptReport with
     | none => []
     | some p => [(.prompt, p.verdict)])

/-- A measurement's report is stored; a part that has a verdict keeps it (R36). -/
def Running.reportMeas (r : Running) (i : Fin 2) (m : MeasReport) : Running :=
  match r.measReports[i.val]? with
  | some none => { r with measReports := r.measReports.set i.val (some m) }
  | _ => r

/-- The expectation's report is stored (R36, R145). -/
def Running.reportExpect (r : Running) (e : ExpectReport) : Running :=
  match r.expectReport with
  | none => { r with expectReport := some e }
  | some _ => r

/-- The prompt's report is stored (R36, R156). -/
def Running.reportPrompt (r : Running) (p : PromptReport) : Running :=
  match r.promptReport with
  | none => { r with promptReport := some p }
  | some _ => r

/-! ### Releasing what a step holds (R39, R44) -/

/-- Free the channels of a list, one after another. -/
def State.freeChannels (s : State) (cs : List (Fin 8)) : State := cs.foldl State.freeChannel s

/-- Free the slots of a list, one after another. -/
def State.freeSlots (s : State) (ms : List (Fin 6)) : State := ms.foldl State.freeSlot s

/-- The expectation of seat `k` stops (R140). -/
def State.stopExpectation (s : State) (k : Fin 4) : State := s.setCapture k (s.seat k).capture.stop

/-- The running-step record is removed (R40). -/
def State.clearRunning (s : State) (k : Fin 4) : State := s.setRunning k none

/-- The match count of a step's expectation as its capture unit holds it; 0 before the expectation was reset
(R47). -/
def State.matchCountNow (s : State) (k : Fin 4) : Nat :=
  if (s.seat k).capture.expectState = .inactive then 0 else (s.seat k).capture.matchCount

/-! ### The abort snapshot (R47) -/

/-- A bound channel as the snapshot records it. -/
def State.snapshotChannel (s : State) (c : Fin 8) : SnapshotChannel where
  channel := c
  address := (s.channel c).address
  remaining := (s.channel c).remaining
  shadow := (s.channel c).shadow
  state := (s.channel c).state

/-- One record per channel entry, absent where no channel is bound. -/
def State.snapshotChannels (s : State) (r : Running) : List (Option SnapshotChannel) :=
  (r.channels.map (fun c => some (s.snapshotChannel c))) ++
    List.replicate (r.step.entries.length - r.channels.length) none

/-- A slot as the snapshot records it. -/
def State.snapshotSlot (s : State) (m : Fin 6) : SnapshotMeas where
  y := (s.slot m).y
  run := (s.slot m).run
  samples := (s.slot m).samples
  zone := (s.slot m).zone

/-- One record per measurement; with no slot bound the values of R47. -/
def State.snapshotSlots (s : State) (r : Running) : List SnapshotMeas :=
  (r.slots.map s.snapshotSlot) ++
    List.replicate (r.step.measurements.length - r.slots.length) { y := none, run := 0, samples := 0, zone := .none }

/-- The state of the step's prompt (R47). -/
def State.snapshotPrompt (s : State) (k : Fin 4) (r : Running) : SnapshotPrompt :=
  match r.promptReport with
  | some { answer := some .yes, .. } => .answeredYes
  | some { answer := some .no, .. } => .answeredNo
  | _ => if (s.prompt k).isOpen then .open else .notOpened

/-- The snapshot of the running step of seat `k` as it stands (R47). -/
def State.snapshotOf (s : State) (k : Fin 4) (r : Running) (cause : Cause) : Snapshot where
  cause := cause
  stepId := r.step.id
  time := s.now
  channels := s.snapshotChannels r
  measurements := s.snapshotSlots r
  matchCount := if r.step.expectation.isSome then some (s.matchCountNow k) else none
  prompt := if r.step.prompt.isSome then some (s.snapshotPrompt k r) else none

/-! ### Result entries (R40, R44, R167) -/

/-- The answer of the prompt, when a key gave one (R40). -/
def Running.answer (r : Running) : Option YesNo :=
  match r.promptReport with
  | none => none
  | some p => p.answer

/-- The measurement records of a step that ended (R40). -/
def Running.resultMeas (r : Running) : List ResultMeas :=
  r.measReports.map (fun m => match m with
    | none => { value := none, samples := 0 }
    | some x => { value := x.value, samples := x.samples })

/-- The entry of a step that ended by R36 or R37. -/
def State.endEntry (s : State) (r : Running) : ResultEntry where
  stepId := r.step.id
  outcome := (judgeStep r.judged).2
  deciding := (judgeStep r.judged).1
  cause := none
  measurements := r.resultMeas
  matchCount := if r.step.expectation.isSome then some ((r.expectReport.map (·.count)).getD 0) else none
  answer := r.answer
  start := r.start
  elapsed := s.now - r.start

/-- The measurement records of an aborted step: latched values, samples from the snapshot (R44, stage 4). -/
def abortedMeas (r : Running) (x : Snapshot) : List ResultMeas :=
  (r.measReports.zip x.measurements).map (fun p =>
    { value := match p.1 with
               | none => none
               | some m => m.value,
      samples := p.2.samples })

/-- The entry of an aborted step (R44, stage 4). -/
def State.abortEntry (s : State) (r : Running) (x : Snapshot) : ResultEntry where
  stepId := r.step.id
  outcome := .aborted
  deciding := .noPart
  cause := some x.cause
  measurements := abortedMeas r x
  matchCount := x.matchCount
  answer := r.answer
  start := r.start
  elapsed := s.now - r.start

/-! ### Abort (R44) -/

/-- Stages 1 to 4 of an abort of the running step of seat `k`; nothing without a running step. -/
def State.abortRunning (s : State) (k : Fin 4) (cause : Cause) : State :=
  match (s.seat k).running with
  | none => s
  | some r =>
    let shot := s.snapshotOf k r cause
    let noted := s.setRecord k { s.record k with snapshot := some shot }
    let freed := (noted.freeChannels r.channels).freeSlots r.slots
    let stopped := (freed.closePrompt k).stopExpectation k
    (stopped.recordResult k (stopped.abortEntry r shot)).clearRunning k

/-! ### Step end (R39, R40) -/

/-- The channels of entries not marked keep (R39, stage 1). -/
def Running.unkept (r : Running) : List (Fin 8) :=
  (r.step.entries.zip r.channels).filterMap (fun p => if p.1.keep then none else some p.2)

/-- The channel of the entry marked keep (R39, stage 2). -/
def Running.keptOne (r : Running) : Option (Fin 8) :=
  (r.step.entries.zip r.channels).findSome? (fun p => if p.1.keep then some p.2 else none)

/-- The keep entry's channel becomes the seat's kept channel, and an older one is freed (R39, stage 2). -/
def State.keepChannel (s : State) (k : Fin 4) (r : Running) : State :=
  match r.keptOne with
  | none => s
  | some c =>
    let kept := s.setChannel c (s.channel c).toKept
    match s.keptChannel k with
    | none => kept
    | some old => kept.freeChannel old

/-- The end of a step by R36 or R37: releases, result entry, STEP_DONE (R39, R40). -/
def State.endStep (s : State) (k : Fin 4) (r : Running) : State :=
  let released := ((s.freeChannels r.unkept).keepChannel k r).freeSlots r.slots
  let stopped := (released.closePrompt k).stopExpectation k
  (stopped.recordResult k (stopped.endEntry r)).clearRunning k

/-! ### Leaving TESTING (R9) -/

/-- The channels bound to seat `k`. -/
def State.channelsOf (s : State) (k : Fin 4) : List (Fin 8) := ids8.filter (fun c => (s.channel c).onSeat k)

/-- The measurement slots bound to seat `k`. -/
def State.slotsOf (s : State) (k : Fin 4) : List (Fin 6) := slotIds.filter (fun m => (s.slot m).seat = some k)

/-- The seat leaves the wait list if it is on it. -/
def State.unwait (s : State) (k : Fin 4) : State := { s with waitList := s.waitList.filter (· != k) }

/-- The effects of leaving TESTING (R9, R99). -/
def State.leaveTesting (s : State) (k : Fin 4) : State :=
  ((((s.freeChannels (s.channelsOf k)).freeSlots (s.slotsOf k)).restOutputs k).unscheduleFrames k).unwait k

/-- Seat `k` leaves TESTING for HOLD or POWERED, with its notice (R10, R17, R18). -/
def State.leaveFor (s : State) (k : Fin 4) (st : SeatState) (flushed : Option Nat) : State :=
  (s.leaveTesting k).enterState k st none flushed

/-- What a step's end does to its seat: the fail policy, and the return to POWERED (R41). -/
def State.settle (s : State) (k : Fin 4) (outcome : StepOutcome) (policy : FailPolicy) : State :=
  if 2 ≤ outcome.rank ∧ policy = .holdSeat then
    (s.setQueue k []).leaveFor k .hold (some (s.seat k).queue.length)
  else if (s.seat k).queue = [] then s.leaveFor k .powered none
  else s

/-! ### Step start (R32 to R35) -/

/-- Whether every program and limit a step names is written (R32). -/
def State.referencesOk (s : State) (st : Step) : Bool :=
  st.entries.all (fun e => (s.program e.program).program.isSome) &&
    st.measurements.all (fun m => (s.limit m.limit).limit.isSome)

/-- Whether the region of a word address is granted to the owner of seat `k`. -/
def State.wordGranted (s : State) (k : Fin 4) (a : Nat) : Bool :=
  match (s.record k).owner with
  | none => false
  | some p => (s.grant (regionOf (BitVec.ofNat 14 a))).grants p

/-- Whether every word of a prompt's bitmap is granted to the seat's owner (R33). -/
def State.promptGranted (s : State) (k : Fin 4) (st : Step) : Bool :=
  match st.prompt with
  | none => true
  | some pr => (List.range pr.width).all (fun i => s.wordGranted k (pr.addr.toNat + i))

/-- The entry numbers of a step. -/
def entryIds : List (Fin 3) := [0, 1, 2]

/-- The measurement numbers of a step. -/
def measIds : List (Fin 2) := [0, 1]

/-- The step taken out of the queue becomes the running step (R32). -/
def Running.fresh (st : Step) (now : RackTime) : Running where
  step := st
  start := now
  deadline := msAfter now st.window
  channels := []
  slots := []
  measReports := st.measurements.map (fun _ => none)
  expectReport := none
  promptReport := none

/-- Change the running-step record of seat `k`, if there is one. -/
def State.editRunning (s : State) (k : Fin 4) (f : Running → Running) : State :=
  match (s.seat k).running with
  | none => s
  | some r => s.setRunning k (some (f r))

/-- A replaced kept channel is freed before the binds (R34). -/
def State.freeReplaced (s : State) (k : Fin 4) (st : Step) : State :=
  match s.replacesKept k st with
  | none => s
  | some c => s.freeChannel c

/-- One channel entry is bound to the lowest-numbered free channel (R34). -/
def bindEntry (k : Fin 4) (s : State) (x : Fin 3 × ChannelEntry) : State :=
  match s.freeChannel? with
  | none => s
  | some c => (s.bindChannel c k x.1 x.2 s.now).editRunning k (fun r => { r with channels := r.channels ++ [c] })

/-- The channels of a step are bound, in entry order (R34). -/
def State.bindEntries (s : State) (k : Fin 4) (st : Step) : State := (entryIds.zip st.entries).foldl (bindEntry k) s

/-- One measurement is bound to the lowest-numbered free slot (R35, stage 1). -/
def bindMeasurement (k : Fin 4) (window : Nat) (s : State) (x : Fin 2 × Measurement) : State :=
  match s.freeSlot? with
  | none => s
  | some m =>
    (s.editRunning k (fun r => { r with slots := r.slots ++ [m] })).bindSlot m k x.1 x.2 s.now window

/-- The slots of a step are bound, in order (R35, stage 1). -/
def State.bindMeasurements (s : State) (k : Fin 4) (st : Step) : State :=
  (measIds.zip st.measurements).foldl (bindMeasurement k st.window) s

/-- The expectation stage of step start (R35, stage 2). -/
def State.startExpectation (s : State) (k : Fin 4) (st : Step) : State :=
  match st.expectation with
  | none => s
  | some e => s.setCapture k ((s.seat k).capture.watch e)

/-- The prompt stage of step start (R35, stage 3). -/
def State.startPrompt (s : State) (k : Fin 4) (st : Step) : State :=
  match st.prompt with
  | none => s
  | some pr => s.openPrompt k pr

/-- The first triggers of the TIMER channels, in entry order, up to the first refusal; whether one was refused
(R35, stage 5). -/
def State.firstTriggers (s : State) : List (Fin 8) → State × Bool
  | [] => (s, false)
  | c :: cs =>
    match (s.channel c).trigger with
    | some (.timer _) =>
      if (s.takeTimer c).2 then s.takeTimer c else State.firstTriggers (s.takeTimer c).1 cs
    | _ => State.firstTriggers s cs

/-- The channels of the running step of seat `k`, in entry order. -/
def State.stepChannels (s : State) (k : Fin 4) : List (Fin 8) :=
  match (s.seat k).running with
  | none => []
  | some r => r.channels

/-- Everything a step binds and opens before the first triggers (R34, R35). -/
def State.bindStep (s : State) (k : Fin 4) (st : Step) : State :=
  (((((s.freeReplaced k st).bindEntries k st).bindMeasurements k st).startExpectation k st).startPrompt k st)

/-- The head step is taken out of the queue and becomes the running step (R32). -/
def State.takeHead (s : State) (k : Fin 4) (st : Step) (rest : List Step) : State :=
  (s.setQueue k rest).setRunning k (some (Running.fresh st s.now))

/-- The start of a step that is now the running step (R32 to R35); whether it ended as aborted at once. -/
def State.startTaken (s : State) (k : Fin 4) (st : Step) : State × Bool :=
  if !s.referencesOk st then (s.abortRunning k .badReference, true)
  else if !s.promptGranted k st then (s.abortRunning k .regionDenied, true)
  else
    let bound := s.bindStep k st
    let triggered := bound.firstTriggers (bound.stepChannels k)
    if triggered.2 then (triggered.1.abortRunning k .regionDenied, true) else (triggered.1, false)

/-- The head step of seat `k` starts; when it ends as aborted at once, its fail policy is applied (R41). Whether
it ended at once. -/
def State.startHead (s : State) (k : Fin 4) : State × Bool :=
  match (s.seat k).queue with
  | [] => (s, false)
  | st :: rest =>
    let started := (s.takeHead k st rest).startTaken k st
    if started.2 then (started.1.settle k .aborted st.policy, true) else (started.1, false)

/-! ### The wait list (R28, R30, R31) -/

/-- What the sequencer still has to do as the last stages of an event. -/
inductive Task where
  | arbiter
  | consider (k : Fin 4)
  deriving DecidableEq, Repr

/-- Whether the head step of seat `k` is to be considered (R28). -/
def State.considerable (s : State) (k : Fin 4) : Bool :=
  (s.record k).state = .testing && (s.seat k).running.isNone && !(s.waitList.contains k) && !(s.seat k).queue.isEmpty

/-- The seat joins the tail of the wait list (R30). -/
def State.joinWait (s : State) (k : Fin 4) : State := { s with waitList := s.waitList ++ [k] }

/-- The tasks that follow a start: the seat of a step that ended at its own start has its next head step considered
at once (R41, R194). -/
def afterStart (k : Fin 4) (ended : Bool) : List Task := if ended then [.consider k] else []

/-- The stages that follow in order; the first argument bounds the tasks taken (log entry 13). An arbiter pass goes
on after each start (R31, R194). -/
def State.runTasks : Nat → List Task → State → State
  | 0, _, s => s
  | _ + 1, [], s => s
  | n + 1, .arbiter :: ts, s =>
    match s.waitList with
    | [] => State.runTasks n ts s
    | k :: rest =>
      if s.covered k then
        let started := { s with waitList := rest }.startHead k
        State.runTasks n (afterStart k started.2 ++ .arbiter :: ts) started.1
      else State.runTasks n ts s
  | n + 1, .consider k :: ts, s =>
    if s.considerable k then
      if s.waitList = [] ∧ s.covered k then
        let started := s.startHead k
        State.runTasks n (afterStart k started.2 ++ ts) started.1
      else State.runTasks n ts (s.joinWait k)
    else State.runTasks n ts s

/-- The number of queued steps of the rack. -/
def State.queuedSteps (s : State) : Nat := (seatIds.map (fun k => (s.seat k).queue.length)).sum

/-- A bound on the tasks that are taken: each start uses up a queued step and adds at most one task, each
look at the wait list takes a seat off it, and each task joins at most one (log entry 13). -/
def State.taskBound (s : State) (ts : List Task) : Nat := 2 * ts.length + s.waitList.length + 3 * s.queuedSteps

/-- Take the tasks to their end. -/
def State.sequence (s : State) (ts : List Task) : State := s.runTasks (s.taskBound ts) ts

/-- The wait-list arbiter runs (R31). -/
def State.arbitrate (s : State) : State := s.sequence [.arbiter]

/-! ### The end of a running step, and what follows (R36, R39 to R41) -/

/-- The running step ends, the seat settles, the arbiter runs and the next head step is considered. -/
def State.finishStep (s : State) (k : Fin 4) (r : Running) : State :=
  ((s.endStep k r).settle k (judgeStep r.judged).2 r.step.policy).sequence [.arbiter, .consider k]

/-- A report has been stored: the step ends when it was the last one missing (R36). -/
def State.afterReport (s : State) (k : Fin 4) (r : Running) : State :=
  let t := s.setRunning k (some r)
  if r.complete then t.finishStep k r else t

/-- A measurement's report reaches the sequencer (R36). -/
def State.deliverMeas (s : State) (k : Fin 4) (i : Fin 2) (m : MeasReport) : State :=
  match (s.seat k).running with
  | none => s
  | some r => s.afterReport k (r.reportMeas i m)

/-- The expectation's report reaches the sequencer (R36, R145). -/
def State.deliverExpect (s : State) (k : Fin 4) (e : ExpectReport) : State :=
  match (s.seat k).running with
  | none => s
  | some r => s.afterReport k (r.reportExpect e)

/-- The prompt's report reaches the sequencer (R36, R156). -/
def State.deliverPrompt (s : State) (k : Fin 4) (p : PromptReport) : State :=
  match (s.seat k).running with
  | none => s
  | some r => s.afterReport k (r.reportPrompt p)

/-! ### Window expiry (R37) -/

/-- The report of a measurement part at expiry; a part that has one keeps it (R128). -/
def State.expiredMeas (s : State) (m : Fin 6) (old : Option MeasReport) : Option MeasReport :=
  match old with
  | some r => some r
  | none =>
    match s.slotLimit m with
    | none => some { verdict := .failTimeout, value := none, samples := (s.slot m).samples }
    | some l => some ((s.slot m).expiryReport l)

/-- Every open part is judged from the state as it stands (R37, R128, R144, R157). -/
def State.judgeOpen (s : State) (k : Fin 4) (r : Running) : Running :=
  { r with
    measReports := (r.slots.zip r.measReports).map (fun p => s.expiredMeas p.1 p.2),
    expectReport := match r.expectReport, r.step.expectation with
                    | none, some e => some ((s.seat k).capture.expiryReport e)
                    | old, _ => old,
    promptReport := match r.promptReport, r.step.prompt with
                    | none, some _ => some { verdict := .failTimeout, answer := none }
                    | old, _ => old }

/-- The window of the running step of seat `k` expires (R37). -/
def State.expireWindow (s : State) (k : Fin 4) : State :=
  match (s.seat k).running with
  | none => s
  | some r => s.finishStep k (s.judgeOpen k r)

/-- Whether the window deadline of seat `k` has been reached (R37). -/
def State.windowReady (s : State) (k : Fin 4) : Bool :=
  match (s.seat k).running with
  | none => false
  | some r => msReached s.now r.deadline

/-! ### Aborts that follow the fail policy (R41, R43, R45) -/

/-- The running step is aborted with a cause of the last three rows of R45, and its fail policy applied. -/
def State.abortByPolicy (s : State) (k : Fin 4) (cause : Cause) : State :=
  match (s.seat k).running with
  | none => s
  | some r => ((s.abortRunning k cause).settle k .aborted r.step.policy).sequence [.arbiter, .consider k]

/-- What follows a refused move of channel `c` (R83). -/
def State.handleRefusal (s : State) (c : Fin 8) : State :=
  match (s.channel c).seat with
  | none => s
  | some k =>
    if (s.channel c).kept then
      let freed := s.freeChannel c
      (freed.postSeat k (freed.notice .fault (some k) none Cause.regionDenied.code (some c.val))).arbitrate
    else s.abortByPolicy k .regionDenied

/-- A state and whether channel `c` had a move refused: the refusal is taken up (R83). -/
def takeRefusal (r : State × Bool) (c : Fin 8) : State := if r.2 then r.1.handleRefusal c else r.1

/-- A state and the channel that had a move refused, if any. -/
def takeRefusal? (r : State × Option (Fin 8)) : State :=
  match r.2 with
  | none => r.1
  | some c => r.1.handleRefusal c

/-! ### Seat transitions in and out of TESTING -/

/-- Seat `k` enters TESTING by START or RESUME: notice, outputs at rest, schedules, the head step considered
(R17, R19, R90, R96). -/
def State.enterTesting (s : State) (k : Fin 4) : State :=
  (((s.enterState k .testing none none).restOutputs k).scheduleFrames k).sequence [.consider k]

/-- Seat `k` in TESTING is aborted into HOLD, its queue kept (R18, R44 to R46); the arbiter is the caller's. -/
def State.haltSeat (s : State) (k : Fin 4) (cause : Cause) : State :=
  (s.abortRunning k cause).leaveFor k .hold none

/-- Seat `k` enters FAULT (R8); in FAULT the first cause is kept. -/
def State.faultSeat (s : State) (k : Fin 4) (c : Cause) : State :=
  if (s.record k).state = .fault then s
  else
    let testing := (s.record k).state = .testing
    let left := if testing then (s.abortRunning k c).leaveTesting k else s
    let moved := (left.setRecord k ((left.record k).enterFault c)).relamp k (left.effectiveLamp k)
    let rested := moved.restOutputs k
    let flushed := rested.setQueue k []
    let told := flushed.postSeat k
      (flushed.notice .fault (some k) none c.code (some (rested.seat k).queue.length))
    if testing then told.arbitrate else told

end Machine
end Sys2Proof
end

