-- ==== Sys2Proof/Machine/PortCommands.lean ====
section
/-! DEFINITION. The commands of the station ports (R175 to R189) and what a port reset does (R23, R61, R189). -/

namespace Sys2Proof
namespace Machine

/-! ### STATUS (R188) -/

/-- The result of STATUS at port `p` (R188); no count byte stands before the seven levels (log entry 32). -/
def State.statusBytes (s : State) (p : Port) : List Byte :=
  let r := s.port p
  e8 (if s.isReady then 1 else 0) ++ eOpt 1 (fun c : ConfigSource => e8 c.code) s.loader.source ++ e8 (portCode p) ++
    eFlag r.overflow ++ e8 r.queue.length ++ e8 (attnCode r.attn) ++ e8 r.threshold.val ++
    r.levels.toList.flatMap (fun l => e8 l.val) ++ e32 s.now.toNat

/-- STATUS clears the overflow flag (R188). -/
def PortRecord.clearOverflow (r : PortRecord) : PortRecord := { r with overflow := false }

/-- STATUS (R188): taken during the load as well. -/
def execStatus (p : Port) (ps : List Byte) (s : State) : Result :=
  if !s.linkOpen p then .next s
  else
    match noArg ps with
    | none => .next (s.answer p { status := .badParam, result := [] })
    | some _ =>
      .next ((s.setPort p (s.port p).clearOverflow).answer p { status := .ok, result := s.statusBytes p })

/-! ### Notices (R185, R187) -/

/-- The oldest notice is removed and ATTN re-judged (R185). -/
def PortRecord.pop (r : PortRecord) : PortRecord :=
  { r with queue := r.queue.tail, attn := judgeAttn r.queue.tail r.threshold }

/-- The result of READ_NOTICE: presence, record, number left (R185). -/
def PortRecord.noticeBytes (r : PortRecord) : List Byte := eOpt 14 eNotice r.queue.head? ++ e8 (r.queue.length - 1)

/-- READ_NOTICE (R185). -/
def execReadNotice (p : Port) (ps : List Byte) (s : State) : Result :=
  command p s (withArg s (noArg ps) fun _ => doneWith (s.setPort p (s.port p).pop) (s.port p).noticeBytes)

/-- SET_NOTICE_LEVEL: a kind and a level (R187). -/
def execSetNoticeLevel (p : Port) (ps : List Byte) (s : State) : Result :=
  command p s (withArg s (indexPairArg 7 16 ps) fun x =>
    done (s.setPort p { s.port p with levels := (s.port p).levels.set x.1 x.2 }))

/-- A threshold is set and ATTN re-judged (R186, R187). -/
def PortRecord.setThreshold (r : PortRecord) (t : Fin 16) : PortRecord :=
  { r with threshold := t, attn := judgeAttn r.queue t }

/-- SET_THRESHOLD (R187). -/
def execSetThreshold (p : Port) (ps : List Byte) (s : State) : Result :=
  command p s (withArg s (indexArg 16 ps) fun t => done (s.setPort p ((s.port p).setThreshold t)))

/-! ### Port reset (R189) -/

/-- The port record after a port reset; the levels of its two inputs stay (R175, R189). -/
def PortRecord.afterReset (r : PortRecord) : PortRecord :=
  { PortRecord.reset with select := r.select, resetActive := r.resetActive }

/-- One seat of the reset port (R23): the owner becomes NONE, and a seat in TESTING is aborted into HOLD. -/
def resetSeat (s : State) (k : Fin 4) : State :=
  let dropped := s.setRecord k { s.record k with owner := none }
  if (s.record k).state = .testing then dropped.haltSeat k .portReset else dropped

/-- The seats a port owns. -/
def State.seatsOf (s : State) (p : Port) : List (Fin 4) := seatIds.filter (fun k => (s.record k).owner = some p)

/-- The grant of a region after a port reset (R61). -/
def Grant.drop (g : Grant) (p : Port) : Grant :=
  match g with
  | .none => .none
  | .both => Grant.of (otherPort p)
  | g => if g = Grant.of p then .none else g

/-- The 32 regions. -/
def regionIds : List (Fin 32) := List.finRange 32

/-- The grants of a port are dropped (R61). -/
def State.dropGrants (s : State) (p : Port) : State :=
  regionIds.foldl (fun t r => t.setGrant r ((t.grant r).drop p)) s

/-- Stages 1 to 3 of a port reset: the port record and the cursor (R189). -/
def State.resetPortRecord (s : State) (p : Port) : State :=
  (s.setPort p (s.port p).afterReset).setCursor p Cursor.reset

/-- A port reset after the load (R189): record, cursor, seats in an open order with one pass of the arbiter after
them (log entries 11 and 12), grants. -/
def State.portReset (s : State) (p : Port) : State :=
  let cleared := s.resetPortRecord p
  ((cleared.takeInOpenOrder (cleared.seatsOf p) resetSeat).arbitrate).dropGrants p

/-- PORT_RESET (R189). -/
def execPortReset (p : Port) (ps : List Byte) (s : State) : Result :=
  command p s (withArg s (noArg ps) fun _ => done (s.portReset p))

/-- A port's reset input is at its active level or not (R189). -/
def State.setResetActive (s : State) (p : Port) (b : Bool) : State := s.setPort p { s.port p with resetActive := b }

/-- PORT_RESET_INPUT (R189): the fall of the port's reset input; during the load it resets the port record alone,
and while the rack reset is held there is nothing to reset (log entry 26). -/
def execPortResetInput (p : Port) (s : State) : Result :=
  match s.loader.phase with
  | .held => .next (s.setResetActive p true)
  | .loading => .next ((s.setResetActive p true).setPort p ((s.setResetActive p true).port p).afterReset)
  | .ready => .next ((s.setResetActive p true).portReset p)

/-- PORT_RESET_RELEASE (R189). -/
def execPortResetRelease (p : Port) (s : State) : Result := .next (s.setResetActive p false)

/-! ### The link (R177, R178) -/

/-- UNKNOWN_COMMAND (R178): the code is checked before everything else. -/
def execUnknownCommand (p : Port) (_code : Byte) (_ps : List Byte) (s : State) : Result :=
  if !s.linkOpen p then .next s else .next (s.answer p { status := .unknown, result := [] })

/-- The byte the KT36 sends at a position of a link transaction, counted from 1: 00h up to and with the turnaround,
the answer from position 5 + Lp on, and 00h past its end (R176, R177). -/
def transactionByte (lp : Nat) (a : Answer) (position : Nat) : Byte :=
  if position < 5 + lp then 0 else a.bytes.getD (position - (5 + lp)) 0

/-- The level of chip select: a fall on an open link begins a transaction, and a rise ends it, whether it was
discarded or answered (R175, R176, R177). A level that stays changes nothing. -/
def PortRecord.chipSelect (r : PortRecord) (isOpen active : Bool) : PortRecord :=
  if r.select = active then r
  else { r with select := active, link := if isOpen && active then .receiving else .idle }

/-- LINK_TRANSACTION_DISCARDED (R177): no effect; chip select ends and the link receiver returns to IDLE. -/
def execLinkTransactionDiscarded (p : Port) (_bytes : List Byte) (s : State) : Result :=
  if !s.linkOpen p then .next s else .next (s.setPort p { s.port p with link := .idle, select := false })

end Machine
end Sys2Proof
end

