-- ==== Sys2Proof/Machine/SeatCommands.lean ====
section
/-! DEFINITION. The commands of the seat controllers (R11 to R21). -/

namespace Sys2Proof
namespace Machine

/-- A command done with the answer ACCEPTED. -/
def accepted (s : State) : State × Answer := (s, { status := .accepted, result := [] })

/-- CLAIM_SEAT (R11). -/
def execClaimSeat (p : Port) (ps : List Byte) (s : State) : Result :=
  command p s (withArg s (indexArg 4 ps) fun k =>
    require s ((s.record k).owner != some (otherPort p)) .inUse
      (done (s.setRecord k { s.record k with owner := some p })))

/-- RELEASE_SEAT (R12). -/
def execReleaseSeat (p : Port) (ps : List Byte) (s : State) : Result :=
  command p s (withArg s (indexArg 4 ps) fun k =>
    ifOwner s p k (require s ((s.record k).state != .testing) .wrongState
      (done (s.setRecord k { s.record k with owner := none }))))

/-- The deadline of a clamp begun now (R7). -/
def State.clampDeadline (s : State) : RackTime := msAfter s.now s.loader.clampTimeout

/-- The deadline of an unclamp begun now (R7). -/
def State.unclampDeadline (s : State) : RackTime := msAfter s.now s.loader.unclampTimeout

/-- A CLAMP that is taken (R14): to CLAMPED at once when the confirm is already closed, else to CLAMPING. -/
def State.clamp (s : State) (k : Fin 4) : State × Answer :=
  if (s.record k).confirm.level then done (s.enterState k .clamped none none)
  else accepted (s.enterState k .clamping (some s.clampDeadline) none)

/-- CLAMP (R14, R174). -/
def execClamp (p : Port) (ps : List Byte) (s : State) : Result :=
  command p s (withArg s (indexArg 4 ps) fun k =>
    ifOwner s p k (require s ((s.record k).state = .loaded) .wrongState
      (require s (!(s.seat k).results.isPending) .resultsPending (s.clamp k))))

/-- UNCLAMP (R15). -/
def execUnclamp (p : Port) (ps : List Byte) (s : State) : Result :=
  command p s (withArg s (indexArg 4 ps) fun k =>
    ifOwner s p k (require s ((s.record k).state = .clamped) .wrongState
      (accepted (s.enterState k .unclamping (some s.unclampDeadline) none))))

/-- POWER_ON (R16). -/
def execPowerOn (p : Port) (ps : List Byte) (s : State) : Result :=
  command p s (withArg s (indexArg 4 ps) fun k =>
    ifOwner s p k (require s ((s.record k).state = .clamped && !(s.record k).trip.level) .wrongState
      (done (s.enterState k .powered none none))))

/-- POWER_OFF (R16). -/
def execPowerOff (p : Port) (ps : List Byte) (s : State) : Result :=
  command p s (withArg s (indexArg 4 ps) fun k =>
    ifOwner s p k (require s ((s.record k).state = .powered || (s.record k).state = .hold) .wrongState
      (done ((s.restOutputs k).enterState k .clamped none none))))

/-- START (R17). -/
def execStart (p : Port) (ps : List Byte) (s : State) : Result :=
  command p s (withArg s (indexArg 4 ps) fun k =>
    ifOwner s p k (require s ((s.record k).state = .powered && !(s.seat k).queue.isEmpty) .wrongState
      (done (s.enterTesting k))))

/-- STOP_SEAT (R18): the abort into HOLD, then the arbiter. -/
def execStopSeat (p : Port) (ps : List Byte) (s : State) : Result :=
  command p s (withArg s (indexArg 4 ps) fun k =>
    ifOwner s p k (require s ((s.record k).state = .testing) .wrongState
      (done (s.haltSeat k .stopSeat).arbitrate)))

/-- RESUME (R19). -/
def execResume (p : Port) (ps : List Byte) (s : State) : Result :=
  command p s (withArg s (indexArg 4 ps) fun k =>
    ifOwner s p k (require s ((s.record k).state = .hold && !(s.seat k).queue.isEmpty) .wrongState
      (done (s.enterTesting k))))

/-- A seat enters VACANT from a state in which it may hold queued steps: they are flushed (R4, R5). -/
def State.vacate (s : State) (k : Fin 4) : State :=
  (s.setQueue k []).enterState k .vacant none (some (s.seat k).queue.length)

/-- The state CLEAR_FAULT chooses from the levels and the actuator (R20). -/
def SeatRecord.clearedState (r : SeatRecord) : SeatState :=
  match r.present.level, r.confirm.level, r.actuator with
  | false, _, _ => .vacant
  | true, true, .closed => .clamped
  | true, true, .open => .unclamping
  | true, false, _ => .loaded

/-- CLEAR_FAULT (R20). -/
def execClearFault (p : Port) (ps : List Byte) (s : State) : Result :=
  command p s (withArg s (indexArg 4 ps) fun k =>
    ifOwnerOrFree s p k (require s ((s.record k).state = .fault) .wrongState
      (done (s.enterState k (s.record k).clearedState
        (if (s.record k).clearedState = .unclamping then some s.unclampDeadline else none) none))))

/-- The fields of READ_SEAT (R21). -/
def State.seatBytes (s : State) (k : Fin 4) : List Byte :=
  let r := s.record k
  e8 r.state.code ++ e8 (ownerCode r.owner) ++ eOpt 1 (fun c : Cause => e8 c.code) r.cause ++
    e8 r.actuator.code ++ e8 r.supply.code ++ eFlag r.present.level ++ eFlag r.confirm.level ++
    eFlag r.trip.level ++ eOpt 2 (fun t => e16 (msLeft s.now t)) r.deadline ++ eOptText r.serial

/-- READ_SEAT (R21). -/
def execReadSeat (p : Port) (ps : List Byte) (s : State) : Result :=
  command p s (withArg s (indexArg 4 ps) fun k => doneWith s (s.seatBytes k))

end Machine
end Sys2Proof
end

