-- ==== Sys2Proof/Machine/StepCommands.lean ====
section
/-! DEFINITION. The commands of the step sequencer (R27, R42, R43, R48, R49). -/

namespace Sys2Proof
namespace Machine

/-- QUEUE_STEP (R26, R27). -/
def execQueueStep (p : Port) (ps : List Byte) (s : State) : Result :=
  command p s (withArg s (queueStepArg ps) fun x =>
    ifOwner s p x.1 (require s ((s.record x.1).state != .vacant && (s.record x.1).state != .fault) .wrongState
      (require s ((s.seat x.1).queue.length < Config.queueDepth) .full
        (doneWith (s.setQueue x.1 ((s.seat x.1).queue ++ [x.2])) (e8 ((s.seat x.1).queue.length + 1))))))

/-- FLUSH_QUEUE that is taken: a waiting seat returns to POWERED and the arbiter runs (R42). -/
def State.flush (s : State) (k : Fin 4) : State :=
  if (s.record k).state = .testing ∧ s.waitList.contains k = true then
    ((s.setQueue k []).leaveFor k .powered (some (s.seat k).queue.length)).arbitrate
  else s.setQueue k []

/-- FLUSH_QUEUE (R42). -/
def execFlushQueue (p : Port) (ps : List Byte) (s : State) : Result :=
  command p s (withArg s (indexArg 4 ps) fun k =>
    ifOwner s p k (doneWith (s.flush k) (e8 (s.seat k).queue.length)))

/-- Whether seat `k` is in TESTING with a running step of this id (R43). -/
def State.runsStep (s : State) (k : Fin 4) (id : Word) : Bool :=
  (s.record k).state = .testing &&
    match (s.seat k).running with
    | none => false
    | some r => r.step.id = id

/-- ABORT_STEP (R43). -/
def execAbortStep (p : Port) (ps : List Byte) (s : State) : Result :=
  command p s (withArg s (abortStepArg ps) fun x =>
    ifOwner s p x.1 (require s (s.runsStep x.1 x.2) .wrongState (done (s.abortByPolicy x.1 .stationAbort))))

/-- The verdicts of the parts of a running step, each optional (R49). -/
def Running.verdictBytes (r : Running) : List Byte :=
  eList (eOpt 1 (fun v : StepOutcome => e8 v.rank)) r.verdicts

/-- The fields of a running step (R49). -/
def State.runningBytes (s : State) (r : Running) : List Byte :=
  e16 r.step.id.toNat ++ e16 (s.now - r.start).toNat ++ e16 (msLeft s.now r.deadline) ++
    eList (fun c : Fin 8 => e8 c.val) r.channels ++ eList (fun m : Fin 6 => e8 m.val) r.slots ++ r.verdictBytes

/-- The position of a seat on the wait list, from 1 (R49). -/
def waitPosition (k : Fin 4) : Nat → List (Fin 4) → Option Nat
  | _, [] => none
  | n, j :: js => if j = k then some n else waitPosition k (n + 1) js

/-- The kept channel of a seat with the output it drives (R49), under one presence byte (log entry 32). -/
def State.keptBytes (s : State) (k : Fin 4) : List Byte :=
  eOpt 2 (fun c : Fin 8 => e8 c.val ++ e8 (match (s.channel c).target with
                                           | none => 0
                                           | some t => t.code)) (s.keptChannel k)

/-- The fields of READ_STEP_STATE (R49; log entries 15 and 18). -/
def State.stepStateBytes (s : State) (k : Fin 4) : List Byte :=
  e8 (s.seat k).queue.length ++ eOpt 2 (fun st : Step => e16 st.id.toNat) (s.seat k).queue.head? ++
    eOpt 1 e8 (waitPosition k 1 s.waitList) ++ e8 (s.headNeed k).1 ++ e8 (s.headNeed k).2 ++ s.keptBytes k ++
    eOpt 9 s.runningBytes (s.seat k).running

/-- READ_STEP_STATE (R49). -/
def execReadStepState (p : Port) (ps : List Byte) (s : State) : Result :=
  command p s (withArg s (indexArg 4 ps) fun k => doneWith s (s.stepStateBytes k))

/-- READ_SNAPSHOT (R48). -/
def execReadSnapshot (p : Port) (ps : List Byte) (s : State) : Result :=
  command p s (withArg s (indexArg 4 ps) fun k => doneWith s (eOpt 13 eSnapshot (s.record k).snapshot))

end Machine
end Sys2Proof
end

