-- ==== Sys2Proof/Machine/PatternCommands.lean ====
section
/-! DEFINITION. The commands of pattern memory and its grant table (R51 to R56). -/

namespace Sys2Proof
namespace Machine

/-- TAKE_REGION (R52). -/
def execTakeRegion (p : Port) (ps : List Byte) (s : State) : Result :=
  command p s (withArg s (indexArg 32 ps) fun r =>
    match s.grant r with
    | .none => done (s.setGrant r (Grant.of p))
    | g => require s (g.grants p) .inUse (done s))

/-- SHARE_REGION (R53). -/
def execShareRegion (p : Port) (ps : List Byte) (s : State) : Result :=
  command p s (withArg s (indexArg 32 ps) fun r =>
    require s (s.grant r = Grant.of p) .wrongState (done (s.setGrant r .both)))

/-- DROP_REGION (R54). -/
def execDropRegion (p : Port) (ps : List Byte) (s : State) : Result :=
  command p s (withArg s (indexArg 32 ps) fun r =>
    require s ((s.grant r).grants p) .notOwner (done (s.setGrant r ((s.grant r).drop p))))

/-- Whether every region a span touches is granted to a port (R55, stage 3). -/
def State.spanGranted (s : State) (p : Port) (a : Nat) (n : Nat) : Bool :=
  (List.range n).all (fun i => (s.grant (regionOf (BitVec.ofNat 14 (a + i)))).grants p)

/-- The words of a span take their values (R55). -/
def State.writePattern (s : State) (a : PatternAddr) (ws : List Word) : State :=
  { s with pattern := Memory.writeSpan s.pattern a.toNat ws }

/-- WRITE_PATTERN (R55). -/
def execWritePattern (p : Port) (ps : List Byte) (s : State) : Result :=
  command p s (withArg s (writePatternArg ps) fun x =>
    require s (s.spanGranted p x.1.toNat x.2.length) .denied (done (s.writePattern x.1 x.2)))

/-- READ_PATTERN (R56); no count byte stands before the words (log entry 32). -/
def execReadPattern (p : Port) (ps : List Byte) (s : State) : Result :=
  command p s (withArg s (readPatternArg ps) fun x =>
    doneWith s ((Memory.readSpan s.pattern x.1.toNat x.2).flatMap (fun w => e16 w.toNat)))

/-- READ_REGIONS (R51); no count byte stands before the 32 entries (log entry 32). -/
def execReadRegions (p : Port) (ps : List Byte) (s : State) : Result :=
  command p s (withArg s (noArg ps) fun _ => doneWith s (s.grants.toList.flatMap (fun g => e8 g.code)))

end Machine
end Sys2Proof
end

