-- ==== Sys2Proof/Machine/StimulusCommands.lean ====
section
/-! DEFINITION. The commands of the program table and the channel pool (R63, R64, R80, R84). -/

namespace Sys2Proof
namespace Machine

/-- WRITE_PROGRAM (R63). -/
def execWriteProgram (p : Port) (ps : List Byte) (s : State) : Result :=
  command p s (withArg s (writeProgramArg ps) fun x =>
    require s ((s.program x.1).uses = 0) .inUse
      (done (s.setProgram x.1 { s.program x.1 with program := some x.2 })))

/-- ERASE_PROGRAM (R64). -/
def execEraseProgram (p : Port) (ps : List Byte) (s : State) : Result :=
  command p s (withArg s (indexArg 48 ps) fun i =>
    require s ((s.program i).uses = 0) .inUse (done (s.setProgram i { s.program i with program := none })))

/-- READ_PROGRAM (R64, R182). -/
def execReadProgram (p : Port) (ps : List Byte) (s : State) : Result :=
  command p s (withArg s (indexArg 48 ps) fun i =>
    doneWith s (eOpt 12 eProgram (s.program i).program ++ e8 (s.program i).uses))

/-- SET_SHADOW (R80). -/
def execSetShadow (p : Port) (ps : List Byte) (s : State) : Result :=
  command p s (withArg s (setShadowArg ps) fun x =>
    ifOwner s p x.1 (require s ((s.channel x.2.1).onSeat x.1) .wrongState
      (done (s.setChannel x.2.1 { s.channel x.2.1 with shadow := x.2.2 }))))

/-- The fields of READ_CHANNEL (R84; log entry 24). -/
def State.channelBytes (s : State) (c : Fin 8) : List Byte :=
  let ch := s.channel c
  e8 ch.state.code ++ eOpt 1 (fun k : Fin 4 => e8 k.val) ch.seat ++ eOpt 1 (fun e : Fin 3 => e8 e.val) ch.entry ++
    eOpt 1 (fun t : Target => e8 t.code) ch.target ++ eOpt 3 eTrigger ch.trigger ++
    eOpt 1 (fun i : Fin 48 => e8 i.val) ch.program ++ e16 ch.address.toNat ++ e16 ch.remaining ++
    eOpt 2 (fun a : PatternAddr => e16 a.toNat) ch.shadow ++ eFlag ch.kept ++
    eOpt 2 (fun t => e16 (msLeft s.now t)) ch.nextTimer

/-- READ_CHANNEL (R84). -/
def execReadChannel (p : Port) (ps : List Byte) (s : State) : Result :=
  command p s (withArg s (indexArg 8 ps) fun c => doneWith s (s.channelBytes c))

end Machine
end Sys2Proof
end

