-- ==== Sys2Proof/Machine/OutputCommands.lean ====
section
/-! DEFINITION. The commands of the output stages and frame links (R91, R93, R95, R101). -/

namespace Sys2Proof
namespace Machine

/-- Whether SET_OUTPUT is taken in a seat state (R90, R91). -/
def SeatState.takesOutput : SeatState → Bool
  | .powered | .testing | .hold => true
  | .vacant | .loaded | .clamping | .clamped | .unclamping | .fault => false

/-- A word set on an output becomes its live value and its last-set value (R91). -/
def State.setOutput (s : State) (k : Fin 4) (t : Target) (w : Word) : State :=
  s.setOutputs k (((s.seat k).outputs.take t w).noteSet t)

/-- SET_OUTPUT (R91). -/
def execSetOutput (p : Port) (ps : List Byte) (s : State) : Result :=
  command p s (withArg s (setOutputArg ps) fun x =>
    ifOwner s p x.1 (require s (s.record x.1).state.takesOutput .wrongState
      (require s (s.driver x.1 x.2.1).isNone .inUse (done (s.setOutput x.1 x.2.1 x.2.2)))))

/-- An optional channel number. -/
def eChannel (c : Option (Fin 8)) : List Byte := eOpt 1 (fun i : Fin 8 => e8 i.val) c

/-- An analog output with its driver (R93). -/
def eAnalog (o : AnalogOut) (d : Option (Fin 8)) : List Byte :=
  e16 o.live.toNat ++ eChannel d ++ eOpt 2 (fun w : BitVec 12 => e16 w.toNat) o.lastSet

/-- A frequency output with its driver (R93). -/
def eFreq (o : FreqOut) (d : Option (Fin 8)) : List Byte :=
  e16 o.live.toNat ++ eChannel d ++ eOpt 2 (fun w : Word => e16 w.toNat) o.lastSet

/-- The digital lines with their driver (R93). -/
def eLines (o : LinesOut) (d : Option (Fin 8)) : List Byte :=
  [o.live] ++ eChannel d ++ eOpt 1 (fun b : Byte => [b]) o.lastSet

/-- The fields of READ_OUTPUTS (R93); no count byte stands before the outputs or the frame slots (log entry 32). -/
def State.outputBytes (s : State) (k : Fin 4) : List Byte :=
  let o := (s.seat k).outputs
  eAnalog o.ao0 (s.driver k .ao0) ++ eAnalog o.ao1 (s.driver k .ao1) ++ eFreq o.fo0 (s.driver k .fo0) ++
    eFreq o.fo1 (s.driver k .fo1) ++ eLines o.dl (s.driver k .dl) ++
    ids8.flatMap (fun f => eChannel (s.driver k (.fs f)))

/-- READ_OUTPUTS (R93). -/
def execReadOutputs (p : Port) (ps : List Byte) (s : State) : Result :=
  command p s (withArg s (indexArg 4 ps) fun k => doneWith s (s.outputBytes k))

/-- A frame slot with new settings; the last outcome is kept (R95). -/
def FrameSlot.replaced (f : FrameSlot) (x : FrameSlotSetting) : FrameSlot :=
  { f with enable := x.enable, ident := x.ident, length := x.length, period := x.period, payload := x.payload }

/-- A frame slot set up; in TESTING its schedule starts afresh (R95, R96). -/
def State.setFrameSlot (s : State) (k : Fin 4) (f : Fin 8) (x : FrameSlotSetting) : State :=
  s.setFrame k f (if (s.record k).state = .testing then ((s.frame k f).replaced x).schedule s.clock
                  else (s.frame k f).replaced x)

/-- SET_FRAME_SLOT (R95). -/
def execSetFrameSlot (p : Port) (ps : List Byte) (s : State) : Result :=
  command p s (withArg s (setFrameSlotArg ps) fun x =>
    ifOwner s p x.1 (done (s.setFrameSlot x.1 x.2.1 x.2.2)))

/-- Whether slot `f` is in flight (R101). -/
def FrameLink.carries (l : FrameLink) (f : Fin 8) : Bool :=
  match l with
  | .idle => false
  | .sending g _ _ _ => g = f

/-- The number of channels whose FRAME trigger names slot `f` of seat `k` (R101). -/
def State.frameTriggerCount (s : State) (k : Fin 4) (f : Fin 8) : Nat :=
  (ids8.filter (fun c => (s.channel c).frameTriggered k f)).length

/-- The fields of READ_FRAME_SLOT (R101); no count byte stands before the eight payload bytes (log entry 32). -/
def State.frameSlotBytes (s : State) (k : Fin 4) (f : Fin 8) : List Byte :=
  let x := s.frame k f
  eFlag x.enable ++ e16 x.ident.toNat ++ e8 x.length ++ e16 x.period ++ x.payload.toList ++ e8 x.last.code ++
    eFlag x.pending ++ eOpt 2 (fun t => e16 (Instant.msLeft s.clock t)) x.nextDue ++ eFlag ((s.seat k).link.carries f) ++
    eChannel (s.driver k (.fs f)) ++ e8 (s.frameTriggerCount k f)

/-- READ_FRAME_SLOT (R101). -/
def execReadFrameSlot (p : Port) (ps : List Byte) (s : State) : Result :=
  command p s (withArg s (indexPairArg 4 8 ps) fun x => doneWith s (s.frameSlotBytes x.1 x.2))

end Machine
end Sys2Proof
end

