-- ==== Sys2Proof/Machine/AcquisitionCommands.lean ====
section
/-! DEFINITION. The commands of the calibration table, the calibration store and the measurement slots (R105,
R106, R108, R115). -/

namespace Sys2Proof
namespace Machine

/-- Replace a calibration entry. -/
def State.setCal (s : State) (i : Fin 32) (x : CalEntry) : State :=
  { s with calibration := s.calibration.set i x }

/-- Replace the store in progress. -/
def State.setStore (s : State) (x : Option StoreOp) : State := { s with loader := { s.loader with store := x } }

/-- SET_CALIBRATION (R105). -/
def execSetCalibration (p : Port) (ps : List Byte) (s : State) : Result :=
  command p s (withArg s (setCalibrationArg ps) fun x =>
    done (s.setCal x.1 { offset := x.2.1, gain := x.2.2, source := .set }))

/-- STORE_CALIBRATION (R106). -/
def execStoreCalibration (p : Port) (ps : List Byte) (s : State) : Result :=
  command p s (withArg s (indexArg 32 ps) fun j =>
    require s s.loader.store.isNone .busy
      (accepted (s.setStore (some { port := p, entry := j, offset := (s.cal j).offset, gain := (s.cal j).gain,
                                    finish := msAfter s.now Config.storeMs }))))

/-- A store in progress in READ_CALIBRATION: entry, port, time left (R108). MODEL: one presence byte stands before the
three, log entry 32. -/
def State.storeBytes (s : State) (x : StoreOp) : List Byte :=
  e8 x.entry.val ++ e8 (portCode x.port) ++ e16 (msLeft s.now x.finish)

/-- READ_CALIBRATION (R108). MODEL: whether a store runs is sent as the presence byte of its entry, port and time left
together, which R108 and R180 leave open, log entry 32. -/
def execReadCalibration (p : Port) (ps : List Byte) (s : State) : Result :=
  command p s (withArg s (indexArg 32 ps) fun j =>
    doneWith s (eInt16 (s.cal j).offset ++ e16 (s.cal j).gain.toNat ++ e8 (s.cal j).source.code ++
      eOpt 4 s.storeBytes s.loader.store))

/-- The converter's state: IDLE 0, CONVERTING 1, and the slot it converts (R113, R115). -/
def Converter.bytes : Converter → List Byte
  | .idle => e8 0 ++ eOpt 1 e8 none
  | .converting m _ _ _ _ => e8 1 ++ eOpt 1 e8 (some m.val)

/-- The fields of READ_SLOT (R115; log entry 24). -/
def State.slotBytes (s : State) (m : Fin 6) : List Byte :=
  let x := s.slot m
  e8 x.state.code ++ eOpt 1 (fun k : Fin 4 => e8 k.val) x.seat ++ eOpt 1 (fun i : Fin 2 => e8 i.val) x.measurement ++
    eOpt 1 (fun i : Fin 8 => e8 i.val) x.input ++ eOpt 1 (fun l : Fin 256 => e8 l.val) x.limit ++
    eOpt 3 eGate x.gate ++ eOpt 2 (fun t => e16 (msLeft s.now t)) x.gateTime ++ eOpt 2 eInt16 x.y ++ e8 x.run ++
    eFlag x.runMarginal ++ e8 x.zone.code ++ eOpt 2 eInt16 x.extreme ++ e16 x.samples ++
    eOpt 2 (fun t => e16 (msLeft s.now t)) x.nextDue ++ eFlag x.due ++ s.converter.bytes ++ e8 s.rotation.val

/-- READ_SLOT (R115). -/
def execReadSlot (p : Port) (ps : List Byte) (s : State) : Result :=
  command p s (withArg s (indexArg 6 ps) fun m => doneWith s (s.slotBytes m))

end Machine
end Sys2Proof
end

