-- ==== Sys2Proof/Machine/LimitCommands.lean ====
section
/-! DEFINITION. The commands of the limit table (R118, R119). -/

namespace Sys2Proof
namespace Machine

/-- WRITE_LIMIT (R118). -/
def execWriteLimit (p : Port) (ps : List Byte) (s : State) : Result :=
  command p s (withArg s (writeLimitArg ps) fun x =>
    require s ((s.limit x.1).uses = 0) .inUse
      (done (s.setLimit x.1 { s.limit x.1 with limit := some x.2 })))

/-- ERASE_LIMIT (R119). -/
def execEraseLimit (p : Port) (ps : List Byte) (s : State) : Result :=
  command p s (withArg s (indexArg 256 ps) fun i =>
    require s ((s.limit i).uses = 0) .inUse (done (s.setLimit i { s.limit i with limit := none })))

/-- The two inner bounds, zeros for an empty entry (R119, R182). -/
def boundBytes : Option Limit → List Byte
  | none => zeros 8
  | some l => eInt32 (l.low + l.guard) ++ eInt32 (l.high - l.guard)

/-- READ_LIMIT (R119, R182). -/
def execReadLimit (p : Port) (ps : List Byte) (s : State) : Result :=
  command p s (withArg s (indexArg 256 ps) fun i =>
    doneWith s (eOpt 10 eLimit (s.limit i).limit ++ e8 (s.limit i).uses ++ boundBytes (s.limit i).limit))

end Machine
end Sys2Proof
end

