-- ==== Sys2Proof/Machine/CaptureCommands.lean ====
section
/-! DEFINITION. The commands of the capture units (R133 to R138). -/

namespace Sys2Proof
namespace Machine

/-- The capture unit of seat `k`. -/
def State.capture (s : State) (k : Fin 4) : Capture := (s.seat k).capture

/-- SET_FILTER (R133). -/
def execSetFilter (p : Port) (ps : List Byte) (s : State) : Result :=
  command p s (withArg s (setFilterArg ps) fun x =>
    ifOwner s p x.1
      (done (s.setCapture x.1 { s.capture x.1 with filters := (s.capture x.1).filters.set x.2.1 x.2.2 })))

/-- SET_ACCEPT_LONG (R134). -/
def execSetAcceptLong (p : Port) (ps : List Byte) (s : State) : Result :=
  command p s (withArg s (setAcceptLongArg ps) fun x =>
    ifOwner s p x.1 (done (s.setCapture x.1 { s.capture x.1 with acceptLong := x.2 })))

/-- The result of READ_CAPTURE: presence, number left, record (R136, R182; log entry 15). -/
def Capture.oldestBytes (c : Capture) : List Byte :=
  match c.queue with
  | [] => eFlag false ++ e8 0 ++ zeros 9
  | r :: rest => eFlag true ++ e8 rest.length ++ eCapture r

/-- READ_CAPTURE (R136). -/
def execReadCapture (p : Port) (ps : List Byte) (s : State) : Result :=
  command p s (withArg s (indexArg 4 ps) fun k =>
    doneWith (s.setCapture k { s.capture k with queue := (s.capture k).queue.tail }) (s.capture k).oldestBytes)

/-- A receive filter in CAPTURE_STATUS (R137). -/
def eFilter (f : Filter) : List Byte := eFlag f.enable ++ e16 f.ident.toNat ++ e16 f.mask.toNat

/-- The fields of CAPTURE_STATUS (R137); no count byte stands before the eight filters (log entry 32). -/
def Capture.statusBytes (c : Capture) : List Byte :=
  e8 c.queue.length ++ eFlag c.overflow ++ e8 (acceptLongCode c.acceptLong) ++ c.filters.toList.flatMap eFilter ++
    e8 c.expectState.code ++ e8 c.matchCount ++ eFlag c.afterSeen ++
    eOpt 1 (fun v : StepOutcome => e8 v.rank) c.verdict

/-- CAPTURE_STATUS (R137): clearing the overflow flag is its one effect. -/
def execCaptureStatus (p : Port) (ps : List Byte) (s : State) : Result :=
  command p s (withArg s (indexArg 4 ps) fun k =>
    doneWith (s.setCapture k { s.capture k with overflow := false }) (s.capture k).statusBytes)

/-- FLUSH_CAPTURE (R138). -/
def execFlushCapture (p : Port) (ps : List Byte) (s : State) : Result :=
  command p s (withArg s (indexArg 4 ps) fun k =>
    ifOwner s p k
      (doneWith (s.setCapture k { s.capture k with queue := [] }) (e8 (s.capture k).queue.length)))

end Machine
end Sys2Proof
end

