-- ==== Sys2Proof/Machine/PanelCommands.lean ====
section
/-! DEFINITION. The commands of the panel controller (R149 to R153, R161 to R164). -/

namespace Sys2Proof
namespace Machine

/-! ### Cursor, write and read (R149 to R153) -/

/-- SET_CURSOR (R149). -/
def execSetCursor (p : Port) (ps : List Byte) (s : State) : Result :=
  command p s (withArg s (indexPairArg 8 128 ps) fun x =>
    require s (!(s.cursor p).rmw) .wrongState
      (done (s.setCursor p { s.cursor p with page := x.1, column := x.2 })))

/-- The column after an access: one on, staying at 127 (R150, R152). -/
def nextColumn (c : Fin 128) : Fin 128 := if h : c.val + 1 < 128 then ⟨c.val + 1, h⟩ else c

/-- Bytes written on a page from a column on; past the end they all fall on column 127 (R150, R151). -/
def writeBytes (page : Fin 8) : Memory 8 × Fin 128 → List Byte → Memory 8 × Fin 128
  | x, [] => x
  | x, b :: bs => writeBytes page (Memory.write x.1 (ramAddr page.val x.2.val) b, nextColumn x.2) bs

/-- The seat whose pane holds a page (R147). -/
def paneSeat (page : Fin 8) : Fin 4 := ⟨page.val / 2, by omega⟩

/-- Replace the display RAM. -/
def State.setRam (s : State) (m : Memory 8) : State := { s with panel := { s.panel with ram := m } }

/-- A write at the caller's cursor (R150). -/
def State.writePanel (s : State) (p : Port) (bs : List Byte) : State :=
  let r := writeBytes (s.cursor p).page (s.panel.ram, (s.cursor p).column) bs
  (s.setRam r.1).setCursor p { s.cursor p with column := r.2 }

/-- WRITE_PANEL (R150). -/
def execWritePanel (p : Port) (ps : List Byte) (s : State) : Result :=
  command p s (withArg s (writePanelArg ps) fun bs =>
    require s ((s.record (paneSeat (s.cursor p).page)).owner != some (otherPort p)) .notOwner
      (require s (!(s.prompt (paneSeat (s.cursor p).page)).isOpen) .paneHeld (done (s.writePanel p bs))))

/-- One byte of a read: the latch takes the RAM byte, and the column moves on outside RMW (R152). -/
def Cursor.read (c : Cursor) (ram : Memory 8) : Cursor :=
  { c with latch := Memory.read ram (ramAddr c.page.val c.column.val),
           column := if c.rmw then c.column else nextColumn c.column }

/-- `n` bytes read through the latch: the bytes returned, and the cursor after (R152). -/
def Cursor.readBytes (ram : Memory 8) : Cursor → Nat → List Byte × Cursor
  | c, 0 => ([], c)
  | c, n + 1 => (c.latch :: (Cursor.readBytes ram (c.read ram) n).1, (Cursor.readBytes ram (c.read ram) n).2)

/-- READ_PANEL (R152). -/
def execReadPanel (p : Port) (ps : List Byte) (s : State) : Result :=
  command p s (withArg s (readPanelArg ps) fun n =>
    doneWith (s.setCursor p (Cursor.readBytes s.panel.ram (s.cursor p) n).2)
      (Cursor.readBytes s.panel.ram (s.cursor p) n).1)

/-- RMW_BEGIN (R153). -/
def execRmwBegin (p : Port) (ps : List Byte) (s : State) : Result :=
  command p s (withArg s (noArg ps) fun _ =>
    require s (!(s.cursor p).rmw) .wrongState
      (done (s.setCursor p { s.cursor p with saved := (s.cursor p).column, rmw := true })))

/-- RMW_END (R153). -/
def execRmwEnd (p : Port) (ps : List Byte) (s : State) : Result :=
  command p s (withArg s (noArg ps) fun _ =>
    require s (s.cursor p).rmw .wrongState
      (done (s.setCursor p { s.cursor p with column := (s.cursor p).saved, rmw := false })))

/-! ### Panel mode and saver (R162, R163) -/

/-- The kind of saver entered now (R163). -/
def State.saverKind (s : State) : Saver :=
  if seatIds.any (fun k => s.effectiveLamp k != .off) then .standby else .sleep

/-- Set the panel mode, entering the saver when both fields have come to hold it and leaving it when they no
longer do (R162, R163). -/
def State.setPanelMode (s : State) (d : Display) (a : AllPoints) : State :=
  let t := { s with panel := { s.panel with display := d, allPoints := a } }
  if d = .off ∧ a = .forced then
    if s.panel.saver = .none then { t with panel := { t.panel with saver := s.saverKind } } else t
  else if s.panel.saver = .none then t
  else t.leaveSaver

/-- PANEL_ON (R162, R163). -/
def execPanelOn (p : Port) (ps : List Byte) (s : State) : Result :=
  command p s (withArg s (noArg ps) fun _ => done (s.setPanelMode .on s.panel.allPoints))

/-- PANEL_OFF (R162, R163). -/
def execPanelOff (p : Port) (ps : List Byte) (s : State) : Result :=
  command p s (withArg s (noArg ps) fun _ => done (s.setPanelMode .off s.panel.allPoints))

/-- ALL_POINTS_NORMAL (R162, R163). -/
def execAllPointsNormal (p : Port) (ps : List Byte) (s : State) : Result :=
  command p s (withArg s (noArg ps) fun _ => done (s.setPanelMode s.panel.display .normal))

/-- ALL_POINTS_FORCED (R162, R163). -/
def execAllPointsForced (p : Port) (ps : List Byte) (s : State) : Result :=
  command p s (withArg s (noArg ps) fun _ => done (s.setPanelMode s.panel.display .forced))

/-! ### Lamps and the state read (R161, R164) -/

/-- A lamp's set mode changes; a changed effective mode starts a fresh period (R160, R161). -/
def State.setLampMode (s : State) (k : Fin 4) (m : LampMode) : State :=
  (s.setLamp k { s.lamp k with mode := m }).relamp k (s.effectiveLamp k)

/-- SET_LAMP (R161). -/
def execSetLamp (p : Port) (ps : List Byte) (s : State) : Result :=
  command p s (withArg s (setLampArg ps) fun x => ifOwner s p x.1 (done (s.setLampMode x.1 x.2)))

/-- A prompt's state: CLOSED 0, OPEN 1 (R155). -/
def promptCode (r : PromptRecord) : Nat := if r.isOpen then 1 else 0

/-- A seat's lamp and prompt in READ_PANEL_STATE (R164); the expected answer and the width each have a presence byte
(log entry 32). -/
def State.panelSeatBytes (s : State) (k : Fin 4) : List Byte :=
  e8 (s.lamp k).mode.code ++ e8 (s.effectiveLamp k).code ++ e8 (promptCode (s.prompt k)) ++
    eOpt 1 (fun x : Expected => e8 x.code) (s.prompt k).expected ++ eOpt 1 e8 (s.prompt k).width

/-- The levels of the nine keys (R164; log entry 16), without a count byte (log entry 32). -/
def State.keyBytes (s : State) : List Byte :=
  seatIds.flatMap (fun k => eFlag (s.key (.answer k .yes)).level ++ eFlag (s.key (.answer k .no)).level) ++
    eFlag (s.key .stop).level

/-- A cursor in READ_PANEL_STATE (R164). -/
def Cursor.bytes (c : Cursor) : List Byte :=
  e8 c.page.val ++ e8 c.column.val ++ [c.latch] ++ eFlag c.rmw ++ e8 c.saved.val

/-- READ_PANEL_STATE (R164). MODEL: the four seat groups and the nine key levels are sent without a count byte, which
R164 and R180 leave open, log entry 32. -/
def execReadPanelState (p : Port) (ps : List Byte) (s : State) : Result :=
  command p s (withArg s (noArg ps) fun _ =>
    doneWith s (e8 s.panel.display.code ++ e8 s.panel.allPoints.code ++ e8 s.panel.saver.code ++
      seatIds.flatMap s.panelSeatBytes ++ s.keyBytes ++ (s.cursor p).bytes))

end Machine
end Sys2Proof
end

