-- ==== Sys2Proof/Machine/ResultCommands.lean ====
section
/-! DEFINITION. The commands of the result stores (R170 to R173). -/

namespace Sys2Proof
namespace Machine

/-- The result of READ_RESULT: presence, entry count, entry (R170, R182; log entry 15). -/
def ResultStore.entryBytes (r : ResultStore) (i : Nat) : List Byte :=
  match r.entries[i]? with
  | none => eFlag false ++ e8 r.entries.length ++ zeros 17
  | some e => eFlag true ++ e8 r.entries.length ++ eResult e

/-- READ_RESULT (R170). -/
def execReadResult (p : Port) (ps : List Byte) (s : State) : Result :=
  command p s (withArg s (indexPairArg 4 64 ps) fun x => doneWith s ((s.seat x.1).results.entryBytes x.2.val))

/-- The fields of READ_SUMMARY (R171). -/
def State.summaryBytes (s : State) (k : Fin 4) : List Byte :=
  let r := (s.seat k).results
  e8 r.summary.code ++ e8 r.entries.length ++ eFlag r.truncated ++ eOptText (s.record k).serial ++ eFlag r.isPending

/-- READ_SUMMARY (R171). -/
def execReadSummary (p : Port) (ps : List Byte) (s : State) : Result :=
  command p s (withArg s (indexArg 4 ps) fun k => doneWith s (s.summaryBytes k))

/-- A cleared result store (R166, R172). -/
def ResultStore.empty : ResultStore where
  entries := []
  summary := .none
  truncated := false

/-- The store is cleared and the serial made absent (R172). -/
def State.clearResults (s : State) (k : Fin 4) : State :=
  (s.setResults k ResultStore.empty).setRecord k { s.record k with serial := none }

/-- CLEAR_RESULTS (R172). -/
def execClearResults (p : Port) (ps : List Byte) (s : State) : Result :=
  command p s (withArg s (indexArg 4 ps) fun k =>
    ifOwnerOrFree s p k (require s ((s.record k).state != .testing) .wrongState
      (doneWith (s.clearResults k) (e8 (s.seat k).results.entries.length))))

/-- Whether the serial is fixed to recorded results (R173, stage 5). -/
def State.serialFixed (s : State) (k : Fin 4) : Bool :=
  (s.record k).serial.isSome && (s.seat k).results.summary != .none

/-- SET_SERIAL (R173). -/
def execSetSerial (p : Port) (ps : List Byte) (s : State) : Result :=
  command p s (withArg s (setSerialArg ps) fun x =>
    ifOwner s p x.1 (require s ((s.record x.1).state != .vacant) .wrongState
      (require s (!s.serialFixed x.1) .resultsPending
        (done (s.setRecord x.1 { s.record x.1 with serial := some x.2 })))))

end Machine
end Sys2Proof
end

