-- ==== Sys2Proof/Machine/Events.lean ====
section
/-! DEFINITION. The events at the pins and at the timebase: sensors and keys (R3 to R7, R158, R159), channels and
windows (R37, R71, R74), frames (R96, R98, R135), acquisition and the calibration store (R107, R111 to R114). An
event that is not due, or not enabled by the record it reaches, has no effect (log entry 3). -/

namespace Sys2Proof
namespace Machine

/-- An event that is taken only when it is due (log entry 3). -/
def whenDue (s : State) (due : Bool) (t : State) : Result := .next (if due then t else s)

/-! ### Sensors (R3 to R7) -/

/-- SENSOR_RAW_CHANGE (R3). -/
def execSensorRawChange (k : Fin 4) (x : Sensor) (active : Bool) (s : State) : Result :=
  .next (s.setRecord k ((s.record k).setSensor x (((s.record k).sensor x).rawChange active s.clock)))

/-- The debounced level takes the raw level (R3). -/
def Debounce.settle (d : Debounce) : Debounce := { d with level := d.raw }

/-- The debounced level of a sensor of seat `k` takes the raw level. -/
def State.settleSensor (s : State) (k : Fin 4) (x : Sensor) : State :=
  s.setRecord k ((s.record k).setSensor x ((s.record k).sensor x).settle)

/-- What a change of the present level does to the seat (R4). -/
def State.presentChanged (s : State) (k : Fin 4) : State :=
  match (s.record k).present.level, (s.record k).state with
  | true, .vacant => s.enterState k .loaded none none
  | false, .loaded => s.vacate k
  | false, .clamping | false, .clamped | false, .powered | false, .testing | false, .hold => s.faultSeat k .unitLost
  | _, _ => s

/-- What a change of the confirm level does to the seat (R5). -/
def State.confirmChanged (s : State) (k : Fin 4) : State :=
  match (s.record k).confirm.level, (s.record k).state with
  | true, .clamping => s.enterState k .clamped none none
  | false, .clamped | false, .powered | false, .testing | false, .hold => s.faultSeat k .clampLost
  | false, .unclamping =>
    if (s.record k).present.level then s.enterState k .loaded none none else s.vacate k
  | _, _ => s

/-- What a change of the trip level does to the seat (R6). -/
def State.tripChanged (s : State) (k : Fin 4) : State :=
  match (s.record k).trip.level, (s.record k).state with
  | true, .powered | true, .testing | true, .hold => s.faultSeat k .supplyTrip
  | _, _ => s

/-- During the start-up load levels are recorded and the states do not follow (R22). -/
def State.afterLoad (s : State) (t : State) : State := if s.isReady then t else s

/-- PRESENT_LEVEL_CHANGE (R4). -/
def execPresentLevelChange (k : Fin 4) (s : State) : Result :=
  whenDue s ((s.record k).present.ready s.clock)
    ((s.settleSensor k .present).afterLoad ((s.settleSensor k .present).presentChanged k))

/-- CONFIRM_LEVEL_CHANGE (R5). -/
def execConfirmLevelChange (k : Fin 4) (s : State) : Result :=
  whenDue s ((s.record k).confirm.ready s.clock)
    ((s.settleSensor k .confirm).afterLoad ((s.settleSensor k .confirm).confirmChanged k))

/-- TRIP_LEVEL_CHANGE (R6). -/
def execTripLevelChange (k : Fin 4) (s : State) : Result :=
  whenDue s ((s.record k).trip.ready s.clock)
    ((s.settleSensor k .trip).afterLoad ((s.settleSensor k .trip).tripChanged k))

/-- Whether seat `k` is in a state with its deadline reached (R7). -/
def State.deadlineReady (s : State) (k : Fin 4) (st : SeatState) : Bool :=
  (s.record k).state = st &&
    match (s.record k).deadline with
    | none => false
    | some t => msReached s.now t

/-- CLAMP_TIMER_EXPIRY (R7). -/
def execClampTimerExpiry (k : Fin 4) (s : State) : Result :=
  whenDue s (s.deadlineReady k .clamping) (s.faultSeat k .clampTimeout)

/-- UNCLAMP_TIMER_EXPIRY (R7). -/
def execUnclampTimerExpiry (k : Fin 4) (s : State) : Result :=
  whenDue s (s.deadlineReady k .unclamping) (s.faultSeat k .unclampTimeout)

/-! ### Windows and channels (R37, R71, R74) -/

/-- WINDOW_EXPIRY (R37). -/
def execWindowExpiry (k : Fin 4) (s : State) : Result := whenDue s (s.windowReady k) (s.expireWindow k)

/-- TIMER_TRIGGER (R71; log entry 10). -/
def execTimerTrigger (c : Fin 8) (s : State) : Result := whenDue s (s.timerReady c) (takeRefusal (s.takeTimer c) c)

/-- CHANNEL_MOVE (R74, R83). -/
def execChannelMove (c : Fin 8) (s : State) : Result := whenDue s (s.moveReady c) (takeRefusal (s.moveOnce c) c)

/-! ### The frame links (R96, R98, R135) -/

/-- A due is taken and the transmit arbiter runs (R96). -/
def State.takeFrameDue (s : State) (k : Fin 4) (f : Fin 8) : State :=
  takeRefusal? ((s.setFrame k f (s.frame k f).takeDue).transmitArbiter k)

/-- FRAME_SLOT_DUE (R96). -/
def execFrameSlotDue (k : Fin 4) (f : Fin 8) (s : State) : Result :=
  whenDue s (s.frameDueReady k f) (s.takeFrameDue k f)

/-- TRANSMISSION_COMPLETE (R98). -/
def execTransmissionComplete (k : Fin 4) (ack : Bool) (s : State) : Result :=
  match s.completedSlot k with
  | none => .next s
  | some f => .next (takeRefusal? ((s.endTransmission k f ack).transmitArbiter k))

/-- The examination stage of a reception, with what its verdict brings (R135, R143). -/
def State.examineFrame (s : State) (k : Fin 4) (ident : BitVec 11) (data : List Byte) : State :=
  let r := (s.capture k).examine ident data
  match r.2 with
  | none => s.setCapture k r.1
  | some e => (s.setCapture k r.1).deliverExpect k e

/-- The storage stage of a reception (R135). -/
def State.storeFrame (s : State) (k : Fin 4) (ident : BitVec 11) (data : List Byte) : State :=
  s.setCapture k ((s.capture k).store ident data s.now)

/-- Whether the link of a seat acknowledges a frame it receives correctly on the bus: in every seat state from the end of
the load, and never before (R100). -/
def State.acknowledges (s : State) (_k : Fin 4) : Bool := s.isReady

/-- FRAME_RECEIVED (R100, R135): a frame the link acknowledges is handed to the capture unit, any other leaves no
trace. -/
def execFrameReceived (k : Fin 4) (ident : BitVec 11) (data : List Byte) (s : State) : Result :=
  whenDue s (s.acknowledges k) ((s.examineFrame k ident data).storeFrame k ident data)

/-! ### Acquisition (R111 to R114) -/

/-- GATE_TIME_REACHED (R111). -/
def execGateTimeReached (m : Fin 6) (s : State) : Result := whenDue s (s.gateReady m) (s.openGate m)

/-- SLOT_DUE (R112). -/
def execSlotDue (m : Fin 6) (s : State) : Result := whenDue s (s.slotDueReady m) (s.takeSlotDue m)

/-- A raw code that is passed on: the sample is processed, and a latch reaches the sequencer (R114, R121). -/
def State.passSample (s : State) (m : Fin 6) (input : Fin 32) (raw : BitVec 12) : State :=
  match s.slotLimit m, (s.slot m).seat, (s.slot m).measurement with
  | some l, some k, some i =>
    let x := ({ s.slot m with samples := (s.slot m).samples + 1 }).takeSample l (calibrate raw (s.cal input))
    if x.state = .latched then (s.setSlot m x).deliverMeas k i x.latchReport else s.setSlot m x
  | _, _, _ => s

/-- Whether a slot is SAMPLING under a binding (R114). -/
def MeasSlot.samplesUnder (m : MeasSlot) (binding : Nat) : Bool := m.state = .sampling && m.binding = binding

/-- The completion of a conversion: passed on or discarded, then IDLE and the arbiter (R114). -/
def State.completeConversion (s : State) : State :=
  match s.converter with
  | .idle => s
  | .converting m b input _ raw =>
    let passed := if (s.slot m).samplesUnder b then s.passSample m input raw else s
    { passed with converter := .idle }.converterArbiter

/-- CONVERSION_COMPLETE of the slot the conversion serves (R114). -/
def execConversionComplete (m : Fin 6) (s : State) : Result := whenDue s (s.conversionReady m) s.completeConversion

/-! ### The calibration store (R106, R107) -/

/-- The offset as the 16-bit word the store writes (R106). -/
def offsetWord (i : Int) : Word := BitVec.ofInt 16 i

/-- One word of a store, if the EEPROM accepted it. -/
def writeIf (ok : Bool) (m : Memory 16) (a : Nat) (w : Word) : Memory 16 := if ok then Memory.write m a w else m

/-- The EEPROM after the words a store got accepted (R106, R107). -/
def storedWords (m : Memory 16) (x : StoreOp) (acc : StoreAccepted) : Memory 16 :=
  writeIf acc.gain
    (writeIf acc.offset (writeIf acc.signature m 0 Config.signature) (2 * x.entry.val + 1) (offsetWord x.offset))
    (2 * x.entry.val + 2) x.gain

/-- Whether the EEPROM accepted all three words (R107). -/
def allAccepted (acc : StoreAccepted) : Bool := acc.signature && acc.offset && acc.gain

/-- The end of a store (R107). -/
def State.endStore (s : State) (x : StoreOp) (acc : StoreAccepted) : State :=
  let written := { s with eeprom := storedWords s.eeprom x acc }
  (written.setStore none).post x.port (s.notice .storeDone none none (if allAccepted acc then 0 else 1) (some x.entry.val))

/-- STORE_END (R107). -/
def execStoreEnd (acc : StoreAccepted) (s : State) : Result :=
  match s.loader.store with
  | none => .next s
  | some x => whenDue s (msReached s.now x.finish) (s.endStore x acc)

/-! ### Keys (R156, R158, R159) -/

/-- KEY_RAW_CHANGE (R158). -/
def execKeyRawChange (key : Key) (active : Bool) (s : State) : Result :=
  .next (s.setKey key ((s.key key).rawChange active s.clock))

/-- The debounced level of a key takes the raw level. -/
def State.settleKey (s : State) (key : Key) : State := s.setKey key (s.key key).settle

/-- Whether a key's press is to be taken: the debounced level becomes active (R158). -/
def State.pressReady (s : State) (key : Key) : Bool := (s.key key).raw && (s.key key).ready s.clock

/-- Whether a key's release is to be taken: the debounced level becomes inactive (R158). -/
def State.releaseReady (s : State) (key : Key) : Bool := !(s.key key).raw && (s.key key).ready s.clock

/-- The verdict an answer gives (R156). -/
def answerVerdict (x : Option Expected) (a : YesNo) : StepOutcome :=
  match x, a with
  | some .either, _ | some .yes, .yes | some .no, .no => .pass
  | _, _ => .operatorNo

/-- A key press of a seat: it answers an open prompt, or posts a KEY notice (R156, R158). -/
def State.keyPressed (s : State) (k : Fin 4) (a : YesNo) : State :=
  if (s.prompt k).isOpen then
    (s.closePrompt k).deliverPrompt k { verdict := answerVerdict (s.prompt k).expected a, answer := some a }
  else s.postSeat k (s.notice .key (some k) none (yesNoCode a) none)

/-- KEY_PRESS (R156, R158): a press during the load has no effect beyond the level. -/
def execKeyPress (k : Fin 4) (key : YesNo) (s : State) : Result :=
  whenDue s (s.pressReady (.answer k key))
    ((s.settleKey (.answer k key)).afterLoad ((s.settleKey (.answer k key)).keyPressed k key))

/-- The STOP key at one seat (R159). -/
def stopOne (s : State) (k : Fin 4) : State :=
  if (s.record k).state = .testing then (s.haltSeat k .stopKey).arbitrate else s

/-- The STOP key at every seat in TESTING, in an open order (R159; log entries 11 and 12). -/
def State.stopPressed (s : State) : State :=
  s.takeInOpenOrder (seatIds.filter (fun k => (s.record k).state = .testing)) stopOne

/-- STOP_KEY_PRESS (R159). -/
def execStopKeyPress (s : State) : Result :=
  whenDue s (s.pressReady .stop) ((s.settleKey .stop).afterLoad (s.settleKey .stop).stopPressed)

/-- KEY_RELEASE (R158). -/
def execKeyRelease (key : Key) (s : State) : Result := whenDue s (s.releaseReady key) (s.settleKey key)

end Machine
end Sys2Proof
end

