-- ==== Sys2Proof/Machine/Resets.lean ====
section
/-! DEFINITION. Cold reset and the start-up load (R22, R60, R104, R107, R190 to R192). -/

namespace Sys2Proof
namespace Machine

/-! ### Cold reset (R190) -/

/-- A debounced input at its reset value, with the level of its pin (log entry 7). -/
def Debounce.atReset (d : Debounce) : Debounce := { Debounce.inactive with raw := d.raw }

/-- A seat at its reset values, with the levels of its sensor pins. -/
def Seat.atReset (x : Seat) : Seat :=
  { Seat.reset with
    record := { SeatRecord.reset with
                present := x.record.present.atReset,
                confirm := x.record.confirm.atReset,
                trip := x.record.trip.atReset } }

/-- The seats at their reset values. -/
def State.resetSeats (s : State) : Vector Seat 4 :=
  #v[(s.seat 0).atReset, (s.seat 1).atReset, (s.seat 2).atReset, (s.seat 3).atReset]

/-- The panel controller at its reset values, with the levels of the key pins. -/
def Panel.atReset (x : Panel) : Panel :=
  { Panel.reset with
    yesKeys := #v[x.yesKeys[0].atReset, x.yesKeys[1].atReset, x.yesKeys[2].atReset, x.yesKeys[3].atReset],
    noKeys := #v[x.noKeys[0].atReset, x.noKeys[1].atReset, x.noKeys[2].atReset, x.noKeys[3].atReset],
    stopKey := x.stopKey.atReset }

/-- The EEPROM after a cold reset: a store that ran is aborted, and each of its words is as it was or as written
(R107). -/
def State.tornEeprom (s : State) (acc : StoreAccepted) : Memory 16 :=
  match s.loader.store with
  | none => s.eeprom
  | some x => storedWords s.eeprom x acc

/-- The KT36 while the rack reset input is held: every block at its reset values (R190). -/
def State.coldReset (s : State) (acc : StoreAccepted) : State :=
  { State.reset with
    pending := s.pending,
    draws := s.draws,
    loader := { Loader.reset with phase := .held },
    eeprom := s.tornEeprom acc,
    inputs := s.inputs,
    seats := s.resetSeats,
    panel := s.panel.atReset,
    portA := s.portA.afterReset,
    portB := s.portB.afterReset }

/-- COLD_RESET (R190). -/
def execColdReset (acc : StoreAccepted) (s : State) : Result := .next (s.coldReset acc)

/-- RACK_RESET_RELEASE (R190): the loader enters LOADING, and rack time starts from 0. -/
def execRackResetRelease (s : State) : Result :=
  whenDue s (s.loader.phase = .held)
    { s with loader := { s.loader with phase := .loading }, clock := Instant.zero }

/-! ### The start-up load (R104, R191, R192) -/

/-- Whether the load takes its values from the EEPROM: every word answers and word 0 is the signature (R191). -/
def State.eepromUsed (s : State) (answers : Bool) : Bool := answers && Memory.read s.eeprom 0 = Config.signature

/-- A calibration entry as the EEPROM gives it (R104, R191). -/
def loadedEntry (m : Memory 16) (j : Fin 32) : CalEntry where
  offset := max (-2048) (min 2047 (Memory.read m (2 * j.val + 1)).toInt)
  gain := Memory.read m (2 * j.val + 2)
  source := .eeprom

/-- A timeout as the EEPROM gives it, clamped into 100 to 10000 ms (R191). -/
def loadedTimeout (m : Memory 16) (a : Nat) : Nat := max 100 (min 10000 (Memory.read m a).toNat)

/-- The 32 calibration entries. -/
def calIds : List (Fin 32) := List.finRange 32

/-- The calibration table takes the values of the EEPROM. -/
def State.loadCalibration (s : State) : State := calIds.foldl (fun t j => t.setCal j (loadedEntry s.eeprom j)) s

/-- The loader as the load ends (R191, R192). -/
def State.loadedLoader (s : State) (used : Bool) : Loader :=
  { s.loader with
    phase := .ready,
    source := some (if used then .eeprom else .defaults),
    clampTimeout := if used then loadedTimeout s.eeprom 65 else Config.defaultTimeout,
    unclampTimeout := if used then loadedTimeout s.eeprom 66 else Config.defaultTimeout }

/-- The configuration takes effect, and pattern memory is clear (R60, R191; log entry 21). -/
def State.configure (s : State) (used : Bool) : State :=
  { (if used then s.loadCalibration else s) with loader := s.loadedLoader used, pattern := [] }

/-- The state a seat takes from its levels at the end of the load (R22). -/
def SeatRecord.loadedState (r : SeatRecord) : SeatState :=
  match r.confirm.level, r.present.level with
  | true, _ => .unclamping
  | false, true => .loaded
  | false, false => .vacant

/-- A seat takes its state from its levels, without a notice (R22, R192). -/
def placeSeat (s : State) (k : Fin 4) : State :=
  s.moveSeat k (s.record k).loadedState
    (if (s.record k).loadedState = .unclamping then some s.unclampDeadline else none)

/-- The end of the load (R192). -/
def State.endLoad (s : State) (answers : Bool) : State :=
  let used := s.eepromUsed answers
  let placed := seatIds.foldl placeSeat (s.configure used)
  placed.postBoth (placed.notice .config none none (if used then 0 else 1) none)

/-- Whether the load is at its end (R192). -/
def State.loadReady (s : State) : Bool :=
  s.loader.phase = .loading && msReached s.now (BitVec.ofNat 32 Config.loadMs)

/-- LOAD_END (R192). -/
def execLoadEnd (answers : Bool) (s : State) : Result := whenDue s s.loadReady (s.endLoad answers)

end Machine
end Sys2Proof
end

