-- ==== Sys2Proof/Machine/Dispatch.lean ====
section
/-! DEFINITION. What each command does: one arm per constructor, each one call of the command's meaning. -/

namespace Sys2Proof
namespace Machine

/-- The effect of a command on everything but the queue. -/
def exec (i : Instr) (s : State) : Host.Outcome State Fault Refusal :=
  match i with
  | .status p ps => Sys2Proof.Machine.execStatus p ps s
  | .readNotice p ps => Sys2Proof.Machine.execReadNotice p ps s
  | .setNoticeLevel p ps => Sys2Proof.Machine.execSetNoticeLevel p ps s
  | .setThreshold p ps => Sys2Proof.Machine.execSetThreshold p ps s
  | .portReset p ps => Sys2Proof.Machine.execPortReset p ps s
  | .portResetInput p => Sys2Proof.Machine.execPortResetInput p s
  | .unknownCommand p code ps => Sys2Proof.Machine.execUnknownCommand p code ps s
  | .linkTransactionDiscarded p bytes => Sys2Proof.Machine.execLinkTransactionDiscarded p bytes s
  | .claimSeat p ps => Sys2Proof.Machine.execClaimSeat p ps s
  | .releaseSeat p ps => Sys2Proof.Machine.execReleaseSeat p ps s
  | .clamp p ps => Sys2Proof.Machine.execClamp p ps s
  | .unclamp p ps => Sys2Proof.Machine.execUnclamp p ps s
  | .powerOn p ps => Sys2Proof.Machine.execPowerOn p ps s
  | .powerOff p ps => Sys2Proof.Machine.execPowerOff p ps s
  | .start p ps => Sys2Proof.Machine.execStart p ps s
  | .stopSeat p ps => Sys2Proof.Machine.execStopSeat p ps s
  | .resume p ps => Sys2Proof.Machine.execResume p ps s
  | .clearFault p ps => Sys2Proof.Machine.execClearFault p ps s
  | .readSeat p ps => Sys2Proof.Machine.execReadSeat p ps s
  | .queueStep p ps => Sys2Proof.Machine.execQueueStep p ps s
  | .flushQueue p ps => Sys2Proof.Machine.execFlushQueue p ps s
  | .abortStep p ps => Sys2Proof.Machine.execAbortStep p ps s
  | .readStepState p ps => Sys2Proof.Machine.execReadStepState p ps s
  | .readSnapshot p ps => Sys2Proof.Machine.execReadSnapshot p ps s
  | .takeRegion p ps => Sys2Proof.Machine.execTakeRegion p ps s
  | .shareRegion p ps => Sys2Proof.Machine.execShareRegion p ps s
  | .dropRegion p ps => Sys2Proof.Machine.execDropRegion p ps s
  | .writePattern p ps => Sys2Proof.Machine.execWritePattern p ps s
  | .readPattern p ps => Sys2Proof.Machine.execReadPattern p ps s
  | .readRegions p ps => Sys2Proof.Machine.execReadRegions p ps s
  | .writeProgram p ps => Sys2Proof.Machine.execWriteProgram p ps s
  | .eraseProgram p ps => Sys2Proof.Machine.execEraseProgram p ps s
  | .readProgram p ps => Sys2Proof.Machine.execReadProgram p ps s
  | .setShadow p ps => Sys2Proof.Machine.execSetShadow p ps s
  | .readChannel p ps => Sys2Proof.Machine.execReadChannel p ps s
  | .setOutput p ps => Sys2Proof.Machine.execSetOutput p ps s
  | .readOutputs p ps => Sys2Proof.Machine.execReadOutputs p ps s
  | .setFrameSlot p ps => Sys2Proof.Machine.execSetFrameSlot p ps s
  | .readFrameSlot p ps => Sys2Proof.Machine.execReadFrameSlot p ps s
  | .setCalibration p ps => Sys2Proof.Machine.execSetCalibration p ps s
  | .storeCalibration p ps => Sys2Proof.Machine.execStoreCalibration p ps s
  | .readCalibration p ps => Sys2Proof.Machine.execReadCalibration p ps s
  | .readSlot p ps => Sys2Proof.Machine.execReadSlot p ps s
  | .writeLimit p ps => Sys2Proof.Machine.execWriteLimit p ps s
  | .eraseLimit p ps => Sys2Proof.Machine.execEraseLimit p ps s
  | .readLimit p ps => Sys2Proof.Machine.execReadLimit p ps s
  | .setFilter p ps => Sys2Proof.Machine.execSetFilter p ps s
  | .setAcceptLong p ps => Sys2Proof.Machine.execSetAcceptLong p ps s
  | .readCapture p ps => Sys2Proof.Machine.execReadCapture p ps s
  | .captureStatus p ps => Sys2Proof.Machine.execCaptureStatus p ps s
  | .flushCapture p ps => Sys2Proof.Machine.execFlushCapture p ps s
  | .setCursor p ps => Sys2Proof.Machine.execSetCursor p ps s
  | .writePanel p ps => Sys2Proof.Machine.execWritePanel p ps s
  | .readPanel p ps => Sys2Proof.Machine.execReadPanel p ps s
  | .rmwBegin p ps => Sys2Proof.Machine.execRmwBegin p ps s
  | .rmwEnd p ps => Sys2Proof.Machine.execRmwEnd p ps s
  | .panelOn p ps => Sys2Proof.Machine.execPanelOn p ps s
  | .panelOff p ps => Sys2Proof.Machine.execPanelOff p ps s
  | .allPointsNormal p ps => Sys2Proof.Machine.execAllPointsNormal p ps s
  | .allPointsForced p ps => Sys2Proof.Machine.execAllPointsForced p ps s
  | .setLamp p ps => Sys2Proof.Machine.execSetLamp p ps s
  | .readPanelState p ps => Sys2Proof.Machine.execReadPanelState p ps s
  | .readResult p ps => Sys2Proof.Machine.execReadResult p ps s
  | .readSummary p ps => Sys2Proof.Machine.execReadSummary p ps s
  | .clearResults p ps => Sys2Proof.Machine.execClearResults p ps s
  | .setSerial p ps => Sys2Proof.Machine.execSetSerial p ps s
  | .sensorRawChange k x active => Sys2Proof.Machine.execSensorRawChange k x active s
  | .presentLevelChange k => Sys2Proof.Machine.execPresentLevelChange k s
  | .confirmLevelChange k => Sys2Proof.Machine.execConfirmLevelChange k s
  | .tripLevelChange k => Sys2Proof.Machine.execTripLevelChange k s
  | .clampTimerExpiry k => Sys2Proof.Machine.execClampTimerExpiry k s
  | .unclampTimerExpiry k => Sys2Proof.Machine.execUnclampTimerExpiry k s
  | .windowExpiry k => Sys2Proof.Machine.execWindowExpiry k s
  | .timerTrigger c => Sys2Proof.Machine.execTimerTrigger c s
  | .channelMove c => Sys2Proof.Machine.execChannelMove c s
  | .frameSlotDue k f => Sys2Proof.Machine.execFrameSlotDue k f s
  | .transmissionComplete k ack => Sys2Proof.Machine.execTransmissionComplete k ack s
  | .frameReceived k ident data => Sys2Proof.Machine.execFrameReceived k ident data s
  | .gateTimeReached m => Sys2Proof.Machine.execGateTimeReached m s
  | .slotDue m => Sys2Proof.Machine.execSlotDue m s
  | .conversionComplete m => Sys2Proof.Machine.execConversionComplete m s
  | .storeEnd acc => Sys2Proof.Machine.execStoreEnd acc s
  | .keyRawChange key active => Sys2Proof.Machine.execKeyRawChange key active s
  | .keyPress k key => Sys2Proof.Machine.execKeyPress k key s
  | .stopKeyPress => Sys2Proof.Machine.execStopKeyPress s
  | .coldReset acc => Sys2Proof.Machine.execColdReset acc s
  | .loadEnd answers => Sys2Proof.Machine.execLoadEnd answers s
  | .rackResetRelease => Sys2Proof.Machine.execRackResetRelease s
  | .keyRelease key => Sys2Proof.Machine.execKeyRelease key s
  | .portResetRelease p => Sys2Proof.Machine.execPortResetRelease p s

end Machine
end Sys2Proof
end

