-- ==== Sys2Proof/Machine/Timebase.lean ====
section
/-! DEFINITION. The rack timebase (R193): which internal events are due, and one microsecond of time (log entries
1, 2, 4 and 9). -/

namespace Sys2Proof
namespace Machine

/-- The list with one element when the condition holds. -/
def oneIf {α : Type} (c : Bool) (x : α) : List α := if c then [x] else []

/-- The debounced changes of a seat's sensors that are due (R3). -/
def State.dueSensors (s : State) (k : Fin 4) : List Instr :=
  oneIf ((s.record k).present.ready s.clock) (.presentLevelChange k) ++
    oneIf ((s.record k).confirm.ready s.clock) (.confirmLevelChange k) ++
    oneIf ((s.record k).trip.ready s.clock) (.tripLevelChange k)

/-- The debounced changes of a seat's keys that are due (R158). -/
def State.dueKeys (s : State) (k : Fin 4) : List Instr :=
  oneIf (s.pressReady (.answer k .yes)) (.keyPress k .yes) ++
    oneIf (s.pressReady (.answer k .no)) (.keyPress k .no) ++
    oneIf (s.releaseReady (.answer k .yes)) (.keyRelease (.answer k .yes)) ++
    oneIf (s.releaseReady (.answer k .no)) (.keyRelease (.answer k .no))

/-- The frame events of a seat that are due (R96, R98); the acknowledgement is a free value. -/
def State.dueFrames (s : State) (k : Fin 4) : List Instr :=
  ids8.flatMap (fun f => oneIf (s.frameDueReady k f) (.frameSlotDue k f)) ++
    oneIf (s.completedSlot k).isSome (.transmissionComplete k (Config.freeAck s.draws))

/-- The events of one seat that are due. -/
def State.dueOfSeat (s : State) (k : Fin 4) : List Instr :=
  s.dueSensors k ++ s.dueKeys k ++ oneIf (s.deadlineReady k .clamping) (.clampTimerExpiry k) ++
    oneIf (s.deadlineReady k .unclamping) (.unclampTimerExpiry k) ++ oneIf (s.windowReady k) (.windowExpiry k) ++
    s.dueFrames k

/-- The events of one channel that are due (R71, R74). -/
def State.dueOfChannel (s : State) (c : Fin 8) : List Instr :=
  oneIf (s.timerReady c) (.timerTrigger c) ++ oneIf (s.moveReady c) (.channelMove c)

/-- The events of one slot that are due (R111, R112, R114). -/
def State.dueOfSlot (s : State) (m : Fin 6) : List Instr :=
  oneIf (s.gateReady m) (.gateTimeReached m) ++ oneIf (s.slotDueReady m) (.slotDue m) ++
    oneIf (s.conversionReady m) (.conversionComplete m)

/-- Which words of a store the EEPROM accepts, as free values. -/
def State.freeStore (s : State) : StoreAccepted where
  signature := Config.freeAccepted s.draws 0
  offset := Config.freeAccepted s.draws 1
  gain := Config.freeAccepted s.draws 2

/-- Whether the store in progress has reached its end (R107). -/
def State.storeReady (s : State) : Bool :=
  match s.loader.store with
  | none => false
  | some x => msReached s.now x.finish

/-- The events of the rack that are due; what the EEPROM does is a free value. -/
def State.dueOfRack (s : State) : List Instr :=
  oneIf s.storeReady (.storeEnd s.freeStore) ++
    oneIf (s.pressReady .stop) .stopKeyPress ++ oneIf (s.releaseReady .stop) (.keyRelease .stop) ++
    oneIf s.loadReady (.loadEnd (Config.freeEepromAnswers s.draws))

/-- Every internal event that is due now. -/
def State.dueEvents (s : State) : List Instr :=
  seatIds.flatMap s.dueOfSeat ++ ids8.flatMap s.dueOfChannel ++ slotIds.flatMap s.dueOfSlot ++ s.dueOfRack

/-- The due event taken first: with several due, which one is a free value (log entry 2). -/
def State.chooseDue (s : State) : List Instr → Option Instr
  | [] => none
  | [x] => some x
  | x :: y :: rest => (x :: y :: rest)[Config.freeChoice s.draws % (x :: y :: rest).length]?

/-- One microsecond of a frequency output: a cycle that has run its period gives way to one at the live period
(R88). A word delivered at the moment a cycle ends finds the next cycle begun (log entry 33). -/
def FreqOut.tick (o : FreqOut) : FreqOut :=
  match o.cycle with
  | none => o
  | some c =>
    if c.elapsed + 1 < 10 * c.period then { o with cycle := some { c with elapsed := c.elapsed + 1 } }
    else { o with cycle := some { period := o.live.toNat, elapsed := 0 } }

/-- One microsecond of a seat's frequency outputs. -/
def tickOutputs (s : State) (k : Fin 4) : State :=
  s.setOutputs k { (s.seat k).outputs with fo0 := (s.seat k).outputs.fo0.tick, fo1 := (s.seat k).outputs.fo1.tick }

/-- One microsecond of a blinking lamp (R160). -/
def tickLamp (s : State) (k : Fin 4) : State :=
  match (s.effectiveLamp k).period? with
  | none => s
  | some n => s.setLamp k { s.lamp k with phase := if (s.lamp k).phase + 1 < n then (s.lamp k).phase + 1 else 0 }

/-- The pins the world outside drives, one microsecond on: the voltages of the measurement inputs (R103) and the
chip select of each port (R176); what they become are free values. -/
def State.drivePins (s : State) : State :=
  { s with
    draws := s.draws + 1,
    inputs := Vector.ofFn (fun i => Config.freeVoltage s.draws i.val),
    portA := s.portA.chipSelect (s.linkOpen .a) (Config.freeSelect s.draws (portCode .a)),
    portB := s.portB.chipSelect (s.linkOpen .b) (Config.freeSelect s.draws (portCode .b)) }

/-- One microsecond of the outputs, the lamps and the rack time. -/
def State.tick (s : State) : State :=
  let t := seatIds.foldl (fun x k => tickLamp (tickOutputs x k) k) s
  { t with clock := t.clock.afterUs 1 }

/-- One microsecond passes; rack time stands while the rack reset is held (R190). -/
def State.advanceTime (s : State) : State := if s.loader.phase = .held then s.drivePins else s.drivePins.tick

/-- What the block does with no command waiting: one due internal event, or one microsecond (log entry 1). -/
def idle (s : State) : Result :=
  match s.chooseDue s.dueEvents with
  | none => .next s.advanceTime
  | some c => exec c { s with draws := s.draws + 1 }

end Machine
end Sys2Proof
end

