-- ==== Sys2Proof/Machine/Step.lean ====
section
/-! DEFINITION. One step: the command at the front of the queue, or the timebase (log entry 1); and the word the
host puts in front of the queue. -/

namespace Sys2Proof
namespace Machine

/-- One step of the KT36. -/
def step (s : State) : Host.Outcome State Fault Refusal :=
  match s.pending with
  | [] => idle s
  | c :: rest => exec c { s with pending := rest }

/-- The state with the command a word spells at the front of its queue; no row of the table gives bits, so no word
spells one. -/
def State.withFetchWord (s : State) (nbits w : Nat) : State :=
  match Sys2Proof.decodeTableWord nbits w with
  | none => s
  | some c => { s with pending := c :: s.pending }

end Machine
end Sys2Proof
end

