-- ==== Sys2Proof/Safety.lean ====
section
/-! DEFINITION. What the statements speak of: when a port takes commands, which port a command comes from, and the
laws of the record of each block that the chapters state (R2, R11, R65, R120, R163, R166, R186; log entry 8). -/

namespace Sys2Proof
namespace Machine

/-! ### Taking commands -/

/-- The port takes link transactions and the start-up load has ended (R178, R189, R190). -/
def State.takes (s : State) (p : Port) : Prop := s.linkOpen p = true ∧ s.isReady = true

/-- An index in one byte. -/
def byteOf (n : Nat) : Byte := BitVec.ofNat 8 n

/-- A command answered with a status and result bytes, the state otherwise as given. -/
def answered (s : State) (p : Port) (st : Status) (bytes : List Byte) : Result :=
  .next (s.answer p { status := st, result := bytes })

/-- The port and the parameters of every link command of the table but STATUS (R179). -/
def callOf : Instr → Option (Port × List Byte)
  | .readNotice p ps | .setNoticeLevel p ps | .setThreshold p ps | .portReset p ps
  | .claimSeat p ps | .releaseSeat p ps | .clamp p ps | .unclamp p ps | .powerOn p ps | .powerOff p ps
  | .start p ps | .stopSeat p ps | .resume p ps | .clearFault p ps | .readSeat p ps
  | .queueStep p ps | .flushQueue p ps | .abortStep p ps | .readStepState p ps | .readSnapshot p ps
  | .takeRegion p ps | .shareRegion p ps | .dropRegion p ps | .writePattern p ps | .readPattern p ps
  | .readRegions p ps | .writeProgram p ps | .eraseProgram p ps | .readProgram p ps | .setShadow p ps
  | .readChannel p ps | .setOutput p ps | .readOutputs p ps | .setFrameSlot p ps | .readFrameSlot p ps
  | .setCalibration p ps | .storeCalibration p ps | .readCalibration p ps | .readSlot p ps
  | .writeLimit p ps | .eraseLimit p ps | .readLimit p ps | .setFilter p ps | .setAcceptLong p ps
  | .readCapture p ps | .captureStatus p ps | .flushCapture p ps | .setCursor p ps | .writePanel p ps
  | .readPanel p ps | .rmwBegin p ps | .rmwEnd p ps | .panelOn p ps | .panelOff p ps
  | .allPointsNormal p ps | .allPointsForced p ps | .setLamp p ps | .readPanelState p ps
  | .readResult p ps | .readSummary p ps | .clearResults p ps | .setSerial p ps => some (p, ps)
  | _ => none

/-- The link commands whose parameters are one index, with the number of values the index has (R180). -/
def oneIndexCommands : List ((Port → List Byte → Instr) × Nat) :=
  [(.setThreshold, 16), (.claimSeat, 4), (.releaseSeat, 4), (.clamp, 4), (.unclamp, 4), (.powerOn, 4), (.powerOff, 4),
    (.start, 4), (.stopSeat, 4), (.resume, 4), (.clearFault, 4), (.readSeat, 4)] ++
  [(.flushQueue, 4), (.readStepState, 4), (.readSnapshot, 4), (.takeRegion, 32), (.shareRegion, 32), (.dropRegion, 32),
    (.eraseProgram, 48), (.readProgram, 48), (.readChannel, 8), (.readOutputs, 4), (.storeCalibration, 32)] ++
  [(.readCalibration, 32), (.readSlot, 6), (.eraseLimit, 256), (.readLimit, 256), (.readCapture, 4), (.captureStatus, 4),
    (.flushCapture, 4), (.readSummary, 4), (.clearResults, 4)]

/-- The link commands that carry no parameters, but for STATUS. -/
def plainCommands : List (Port → List Byte → Instr) :=
  [.readNotice, .portReset, .readRegions, .rmwBegin, .rmwEnd, .panelOn, .panelOff, .allPointsNormal, .allPointsForced,
    .readPanelState]

/-- The link commands whose first parameter bytes are several indexes, or an index before other fields, with the
number of values each index has (R180). -/
def leadingIndexes : List ((Port → List Byte → Instr) × List Nat) :=
  [(.abortStep, [4]), (.readFrameSlot, [4, 8]), (.readResult, [4, 64]), (.setShadow, [4, 8]), (.setOutput, [4]),
    (.setFrameSlot, [4, 8]), (.setFilter, [4, 8]), (.setAcceptLong, [4])] ++
  [(.setLamp, [4]), (.setSerial, [4]), (.queueStep, [4]), (.setNoticeLevel, [7, 16]), (.setCursor, [8, 128]),
    (.writeProgram, [48]), (.setCalibration, [32])]

/-- The link commands of a fixed length beside those of one index or of none, with that length (R178). -/
def fixedLengths : List ((Port → List Byte → Instr) × Nat) :=
  [(.abortStep, 3), (.readFrameSlot, 2), (.readResult, 2), (.setShadow, 5), (.setOutput, 4), (.setFrameSlot, 16),
    (.setFilter, 7), (.setAcceptLong, 2)] ++
  [(.setLamp, 2), (.setNoticeLevel, 2), (.setCursor, 2), (.writeProgram, 13), (.writeLimit, 11), (.setCalibration, 5),
    (.readPattern, 3), (.readPanel, 1)]

/-- The link commands whose length a field of theirs gives, with the shortest length one of them has (R55, R150, R173,
R181). -/
def shortestLengths : List ((Port → List Byte → Instr) × Nat) :=
  [(.writePattern, 5), (.writePanel, 2), (.setSerial, 2), (.queueStep, 10)]

/-- The port and the seat of a changing seat command whose parameters are in range (R13, the last column of its table). -/
def ownerCommand : Instr → Option (Port × Fin 4)
  | .releaseSeat p ps | .clamp p ps | .unclamp p ps | .powerOn p ps | .powerOff p ps | .start p ps | .stopSeat p ps
  | .resume p ps | .flushQueue p ps | .flushCapture p ps => (indexArg 4 ps).map (fun k => (p, k))
  | .queueStep p ps => (queueStepArg ps).map (fun x => (p, x.1))
  | .abortStep p ps => (abortStepArg ps).map (fun x => (p, x.1))
  | .setShadow p ps => (setShadowArg ps).map (fun x => (p, x.1))
  | .setOutput p ps => (setOutputArg ps).map (fun x => (p, x.1))
  | .setFrameSlot p ps => (setFrameSlotArg ps).map (fun x => (p, x.1))
  | .setFilter p ps => (setFilterArg ps).map (fun x => (p, x.1))
  | .setAcceptLong p ps => (setAcceptLongArg ps).map (fun x => (p, x.1))
  | .setLamp p ps => (setLampArg ps).map (fun x => (p, x.1))
  | .setSerial p ps => (setSerialArg ps).map (fun x => (p, x.1))
  | _ => none

/-- A number in two bytes, low byte first (R180). -/
def bytes16 (n : Nat) : List Byte := [byteOf n, byteOf (n / 256)]

/-- An optional number of one byte: a presence byte, and the number or a zero (R180). -/
def optional1 : Option Nat → List Byte
  | none => [0, 0]
  | some n => [1, byteOf n]

/-- An optional number of two bytes: a presence byte, and the number or zeros (R180). -/
def optional2 : Option Nat → List Byte
  | none => [0, 0, 0]
  | some n => [1] ++ bytes16 n

/-- A number of four bytes, low byte first (R180). -/
def bytes32 (n : Nat) : List Byte := bytes16 n ++ bytes16 (n / 65536)

/-! ### The step record on the link (R25, R181) -/

/-- PRESENT 0, ABSENT 1 (R181). -/
def ExpectMode.code : ExpectMode → Nat
  | .present => 0
  | .absent => 1

/-- CONTINUE 0, HOLD_SEAT 1 (R181). -/
def FailPolicy.code : FailPolicy → Nat
  | .continue => 0
  | .holdSeat => 1

/-- The code of a length rule (R181). -/
def LengthRule.code : LengthRule → Nat
  | .exact n => n
  | .any => 255

/-- A channel entry, 6 bytes. -/
def ChannelEntry.bytes (e : ChannelEntry) : List Byte :=
  [byteOf e.program.val, byteOf e.target.code, if e.keep then 1 else 0] ++ eTrigger e.trigger

/-- A measurement, 5 bytes. -/
def Measurement.bytes (m : Measurement) : List Byte := [byteOf m.input.val, byteOf m.limit.val] ++ eGate m.gate

/-- The after pattern with its flag, 18 bytes: zeros when it is absent. -/
def afterBytes : Option FramePattern → List Byte
  | none => zeros 18
  | some a => [1] ++ a.bytes.toList ++ a.care.toList ++ [byteOf a.rule.code]

/-- An expectation, 41 bytes. -/
def Expectation.bytes (e : Expectation) : List Byte :=
  [byteOf e.mode.code] ++ bytes16 e.ident.toNat ++ bytes16 e.mask.toNat ++ [byteOf e.pattern.rule.code] ++
    e.pattern.bytes.toList ++ e.pattern.care.toList ++ [byteOf e.required] ++ afterBytes e.after

/-- A prompt, 4 bytes. -/
def Prompt.bytes (p : Prompt) : List Byte := bytes16 p.addr.toNat ++ [byteOf p.width, byteOf p.expected.code]

/-- A step record. -/
def Step.bytes (st : Step) : List Byte :=
  bytes16 st.id.toNat ++ bytes16 st.window ++
    [byteOf st.policy.code, byteOf st.entries.length, byteOf st.measurements.length, if st.expectation.isSome then 1 else 0,
     if st.prompt.isSome then 1 else 0] ++
    st.entries.flatMap ChannelEntry.bytes ++ st.measurements.flatMap Measurement.bytes ++
    (st.expectation.map Expectation.bytes).getD [] ++ (st.prompt.map Prompt.bytes).getD []

/-- A length rule in range (R139). -/
def LengthRule.fits : LengthRule → Bool
  | .exact n => n ≤ 8
  | .any => true

/-- A trigger in range (R25). -/
def Trigger.fits : Trigger → Bool
  | .timer p => 1 ≤ p && p ≤ 65535
  | .frame _ | .chain _ => true

/-- A gate in range (R25). -/
def Gate.fits : Gate → Bool
  | .delay d => d ≤ 65535
  | .start | .mark _ => true

/-- A step record within the ranges of R25 and R139. -/
structure Step.Fits (st : Step) : Prop where
  window : 1 ≤ st.window ∧ st.window ≤ 65535
  entries : st.entries.length ≤ 3 ∧ ∀ e ∈ st.entries, e.trigger.fits = true
  measurements : st.measurements.length ≤ 2 ∧ ∀ m ∈ st.measurements, m.gate.fits = true
  expectation : ∀ e ∈ st.expectation, e.pattern.rule.fits = true ∧ 1 ≤ e.required ∧ e.required ≤ 15 ∧
    ∀ a ∈ e.after, a.rule.fits = true
  prompt : ∀ p ∈ st.prompt, 1 ≤ p.width ∧ p.width ≤ 128

/-- A program record within the ranges of R62. -/
structure Program.Fits (p : Program) : Prop where
  step : p.step ∈ [1, 2, 4, 8, 16, 32, 64, 128]
  wrap : p.wrap ≤ 14
  count : 1 ≤ p.count ∧ p.count ≤ 1024
  block : p.block ∈ [1, 2, 4, 8, 16]
  mark : p.mark ≤ 1023

/-- A limit record within the ranges of R117. -/
structure Limit.Fits (l : Limit) : Prop where
  low : -32768 ≤ l.low
  high : l.low ≤ l.high ∧ l.high ≤ 32767
  guard : l.guard ≤ 32767
  settle : 1 ≤ l.settle ∧ l.settle ≤ 255
  shift : l.shift ≤ 7
  interval : 1 ≤ l.interval ∧ l.interval ≤ 255

/-! ### The sequencer (R24, R28, R190) -/

/-- A step runs only on a seat in TESTING, the wait list holds only seats in TESTING without a running step and each
once (R28, R30), and until the load has ended every seat is VACANT. -/
structure State.StepsLawful (s : State) : Prop where
  runs : ∀ k, (s.seat k).running.isSome = true → (s.record k).state = .testing
  waits : ∀ k ∈ s.waitList, (s.record k).state = .testing
  idle : ∀ k ∈ s.waitList, (s.seat k).running = none
  once : s.waitList.Nodup
  vacant : s.isReady = false → ∀ k, (s.record k).state = .vacant

/-! ### Seat records (R1, R2, R7) -/

/-- The states in which a deadline runs (R1, R7). -/
def SeatState.timed : SeatState → Bool
  | .clamping | .unclamping => true
  | _ => false

/-- The causes a seat can enter FAULT with (R1). -/
def Cause.isFault : Cause → Bool
  | .clampTimeout | .unclampTimeout | .supplyTrip | .unitLost | .clampLost => true
  | _ => false

/-- A seat record as R1 and R2 fix it: the outputs by the state, the actuator in FAULT by the cause, the cause present
exactly in FAULT, the deadline exactly in CLAMPING and UNCLAMPING. -/
structure SeatRecord.Lawful (r : SeatRecord) : Prop where
  supply : r.supply = r.state.supply
  actuator : r.state ≠ .fault → r.actuator = r.state.actuator
  noCause : r.state ≠ .fault → r.cause = none
  fault : r.state = .fault → ∃ c, r.cause = some c ∧ c.isFault = true ∧ r.actuator = c.faultActuator
  deadline : r.deadline.isSome = r.state.timed

/-- Every seat record is as R1 and R2 fix it. -/
def State.SeatsLawful (s : State) : Prop := ∀ k, (s.record k).Lawful

/-- The states whose confirm level is CLOSED (R2, R14, R20). -/
def SeatState.confirmed : SeatState → Bool
  | .clamped | .powered | .testing | .hold => true
  | _ => false

/-- The confirm level is CLOSED in CLAMPED, POWERED, TESTING and HOLD (R2), and a seat in TESTING has an owner (R11). -/
structure State.SeatsHeld (s : State) : Prop where
  closed : ∀ k, (s.record k).state.confirmed = true → (s.record k).confirm.level = true
  owned : ∀ k, (s.record k).state = .testing → (s.record k).owner ≠ none

/-! ### Ports (R183, R186) -/

/-- A port record as R175, R183 and R186 fix it: at most 32 notices, none of level 0, ATTN asserted exactly when a
queued notice lies above the threshold, and the link receiver IDLE outside a chip-select period. -/
structure PortRecord.Lawful (r : PortRecord) : Prop where
  length : r.queue.length ≤ Config.noticeDepth
  level : ∀ n ∈ r.queue, n.level ≠ 0
  attn : r.attn = true ↔ ∃ n ∈ r.queue, r.threshold < n.level
  between : r.select = false → r.link = .idle

/-- Both port records are as R175, R183 and R186 fix them. -/
def State.PortsLawful (s : State) : Prop := ∀ p, (s.port p).Lawful

/-! ### The panel (R163) -/

/-- The saver is not NONE exactly while the display is OFF and all-points is FORCED (R163). -/
def State.SaverLawful (s : State) : Prop :=
  s.panel.saver ≠ .none ↔ s.panel.display = .off ∧ s.panel.allPoints = .forced

/-! ### Memories (log entry 8) -/

/-- The three memories are in canonical form. -/
def State.MemoriesCanonical (s : State) : Prop :=
  Memory.wf s.pattern ∧ Memory.wf s.eeprom ∧ Memory.wf s.panel.ram

/-! ### Use counts (R65, R120) -/

/-- How many channels run a program. -/
def State.running (s : State) (i : Fin 48) : Nat :=
  (ids8.filter (fun c => (s.channel c).state ≠ .free ∧ (s.channel c).program = some i)).length

/-- How many slots are bound under a limit. -/
def State.judging (s : State) (i : Fin 256) : Nat :=
  (slotIds.filter (fun m => (s.slot m).state ≠ .free ∧ (s.slot m).limit = some i)).length

/-- Each program's use count is the number of non-FREE channels running it, and a FREE channel runs none (R65, R66). -/
structure State.ProgramsCounted (s : State) : Prop where
  free : ∀ c, (s.channel c).state = .free → (s.channel c).program = none
  uses : ∀ i, (s.program i).uses = s.running i

/-- Each limit's use count is the number of non-FREE slots naming it, and a FREE slot names none (R109, R120). -/
structure State.LimitsCounted (s : State) : Prop where
  free : ∀ m, (s.slot m).state = .free → (s.slot m).limit = none
  uses : ∀ i, (s.limit i).uses = s.judging i

/-! ### Lists (R24, R132, R166) -/

/-- A result store as R166 fixes it: at most 64 entries, and the summary NONE exactly when the list is empty. -/
structure ResultStore.Lawful (r : ResultStore) : Prop where
  length : r.entries.length ≤ Config.resultDepth
  summary : r.summary = .none ↔ r.entries = []

/-- Every step queue holds at most 24 steps, every capture queue at most 16 records, and every result store is as
R166 fixes it. -/
def State.ListsBounded (s : State) : Prop :=
  ∀ k, (s.seat k).queue.length ≤ Config.queueDepth ∧ (s.seat k).capture.queue.length ≤ Config.captureDepth ∧
    (s.seat k).results.Lawful

end Machine
end Sys2Proof
end

