-- ==== Sys2Proof/Certificates/Slice0/Obligations.lean ====
section
/-! DEFINITION. The statements for the provers. Each says, for every state and every operand that meets its
hypotheses, what a command or an event of the KT36 answers, or which law of the records every step keeps. -/

open Sys2Proof Sys2Proof.Machine

/-! ### The step -/

/-- A step with a command at the front of the queue runs that command on the state with the queue's rest. -/
def Obligations.StepRunsFrontCommand : Prop :=
  ∀ (c : Instr) (rest : List Instr) (s : State), step { s with pending := c :: rest } = exec c { s with pending := rest }

/-- MODEL (log entries 1, 2, 9): with no command waiting, a step takes one of the internal events that are due, or
lets one microsecond pass when none is. In that microsecond the clock moves on, unless the rack reset is held; the
input voltages and the two chip selects take whatever levels the world outside gives them (log entries 9 and 19); on
an open link a fall of chip select makes the link receiver RECEIVING, and a rise makes it IDLE (R175, R177); a level
that stays leaves it; and beside these only the running cycles of the frequency outputs and the lamp phases move. -/
def Obligations.EmptyQueueTakesDueEventOrTime : Prop :=
  (∀ s : State, s.pending = [] →
    (s.dueEvents = [] → step s = .next s.advanceTime) ∧
    (s.dueEvents ≠ [] → ∃ c ∈ s.dueEvents, step s = exec c { s with draws := s.draws + 1 })) ∧
  (∀ s : State,
    s.advanceTime.clock = (if s.loader.phase = .held then s.clock else s.clock.afterUs 1) ∧
    (∀ p, ∃ active, s.advanceTime.port p = { s.port p with
      select := active,
      link := if active = (s.port p).select then (s.port p).link
              else if active = true ∧ s.linkOpen p = true then .receiving else .idle }) ∧
    (∀ k, { s.advanceTime.seat k with outputs := (s.seat k).outputs } = s.seat k) ∧
    (∀ k, (s.advanceTime.seat k).outputs.ao0 = (s.seat k).outputs.ao0 ∧
      (s.advanceTime.seat k).outputs.ao1 = (s.seat k).outputs.ao1 ∧
      (s.advanceTime.seat k).outputs.dl = (s.seat k).outputs.dl ∧
      { (s.advanceTime.seat k).outputs.fo0 with cycle := none } = { (s.seat k).outputs.fo0 with cycle := none } ∧
      { (s.advanceTime.seat k).outputs.fo1 with cycle := none } = { (s.seat k).outputs.fo1 with cycle := none }) ∧
    { s.advanceTime.panel with lamps := s.panel.lamps } = s.panel ∧
    (∀ k, (s.advanceTime.lamp k).mode = (s.lamp k).mode) ∧
    { s.advanceTime with clock := s.clock, draws := s.draws, inputs := s.inputs, seats := s.seats, panel := s.panel,
                         portA := s.portA, portB := s.portB } = s)

/-- No command and no event stops the KT36: each answers a next state from every state. MODEL (log entry 3): an event
that is not due, or that the record it reaches does not await, changes nothing. -/
def Obligations.EveryCommandAnswersNext : Prop :=
  (∀ (c : Instr) (s : State), ∃ t, exec c s = .next t) ∧
  (∀ s : State,
     (∀ k, (s.record k).present.ready s.clock = false → exec (.presentLevelChange k) s = .next s) ∧
     (∀ k, (s.record k).confirm.ready s.clock = false → exec (.confirmLevelChange k) s = .next s) ∧
     (∀ k, (s.record k).trip.ready s.clock = false → exec (.tripLevelChange k) s = .next s) ∧
     (∀ k, s.deadlineReady k .clamping = false → exec (.clampTimerExpiry k) s = .next s) ∧
     (∀ k, s.deadlineReady k .unclamping = false → exec (.unclampTimerExpiry k) s = .next s) ∧
     (∀ k, s.windowReady k = false → exec (.windowExpiry k) s = .next s) ∧
     (∀ c, s.timerReady c = false → exec (.timerTrigger c) s = .next s) ∧
     (∀ c, s.moveReady c = false → exec (.channelMove c) s = .next s) ∧
     (∀ k f, s.frameDueReady k f = false → exec (.frameSlotDue k f) s = .next s) ∧
     (∀ k ack, s.completedSlot k = none → exec (.transmissionComplete k ack) s = .next s) ∧
     (∀ m, s.gateReady m = false → exec (.gateTimeReached m) s = .next s) ∧
     (∀ m, s.slotDueReady m = false → exec (.slotDue m) s = .next s) ∧
     (∀ m, s.conversionReady m = false → exec (.conversionComplete m) s = .next s) ∧
     (∀ acc, s.storeReady = false → exec (.storeEnd acc) s = .next s) ∧
     (∀ k y, s.pressReady (.answer k y) = false → exec (.keyPress k y) s = .next s) ∧
     (∀ y, s.releaseReady y = false → exec (.keyRelease y) s = .next s) ∧
     (s.pressReady .stop = false → exec .stopKeyPress s = .next s) ∧
     (∀ a, s.loadReady = false → exec (.loadEnd a) s = .next s) ∧
     (s.loader.phase ≠ .held → exec .rackResetRelease s = .next s))

/-! ### Laws every step keeps -/

/-- The display RAM, pattern memory and the EEPROM stay in canonical form. MODEL: the canonical form is log entry 8.
The state of a seat goes on fixing its outputs, its cause and its deadline (R1, R2). The confirm level goes on being
CLOSED in CLAMPED, POWERED, TESTING and HOLD (R2, R5), and a seat in TESTING goes on having an owner (R11). ATTN goes
on showing exactly whether a queued notice lies above the threshold, a queue holds at most 32 notices, none of level
0, and the link receiver is IDLE while chip select is inactive (R175, R183, R186). The saver goes on being entered
exactly while the display is OFF and all-points is FORCED (R163). -/
def Obligations.StepKeepsRecordsLawful : Prop :=
  (∀ s t : State, s.MemoriesCanonical → step s = .next t → t.MemoriesCanonical) ∧
  (∀ s t : State, s.SeatsLawful → step s = .next t → t.SeatsLawful) ∧
  (∀ s t : State, s.StepsLawful → s.SeatsHeld → step s = .next t → t.SeatsHeld) ∧
  (∀ s t : State, s.PortsLawful → step s = .next t → t.PortsLawful) ∧
  (∀ s t : State, s.SaverLawful → step s = .next t → t.SaverLawful)

/-- The use count of each program goes on being the number of non-FREE channels that run it (R65). The use count of
each limit goes on being the number of non-FREE slots that name it (R120). -/
def Obligations.StepKeepsUseCounts : Prop :=
  (∀ s t : State, s.ProgramsCounted → step s = .next t → t.ProgramsCounted) ∧
  (∀ s t : State, s.LimitsCounted → step s = .next t → t.LimitsCounted)

/-- Step queues, capture queues and result lists stay within their lengths, and a summary is NONE exactly while its
list is empty (R24, R132, R166). -/
def Obligations.StepKeepsListsBounded : Prop :=
  ∀ s t : State, s.ListsBounded → step s = .next t → t.ListsBounded

/-- Only a seat in TESTING goes on having a running step or waiting, a waiting seat has no running step, no seat waits
twice, and no seat leaves VACANT before the load has ended (R22, R24, R28, R30). -/
def Obligations.StepKeepsStepsLawful : Prop :=
  ∀ s t : State, s.StepsLawful → step s = .next t → t.StepsLawful

/-- Every law holds at the state after reset. -/
def Obligations.ResetStateIsLawful : Prop :=
  State.reset.MemoriesCanonical ∧ State.reset.SeatsLawful ∧ State.reset.SeatsHeld ∧ State.reset.PortsLawful ∧
    State.reset.SaverLawful ∧ State.reset.ProgramsCounted ∧ State.reset.LimitsCounted ∧ State.reset.ListsBounded ∧
    State.reset.StepsLawful

/-- The words of pattern memory change by a granted WRITE_PATTERN, by a cold reset and by the clear of the load, and
by nothing else (R55). -/
def Obligations.PatternChangesOnlyByWriteOrClear : Prop :=
  ∀ (c : Instr) (s t : State), exec c s = .next t → t.pattern ≠ s.pattern →
    (∃ p ps a ws, c = .writePattern p ps ∧ writePatternArg ps = some (a, ws) ∧
      s.spanGranted p a.toNat ws.length = true) ∨ (∃ acc, c = .coldReset acc) ∨ (∃ a, c = .loadEnd a)

/-! ### The link, the ports and start-up -/

/-- A port takes nothing while its reset input or the rack reset is held, and answers NOT_READY during the load;
STATUS is answered then as well (R178, R189, R190). UNKNOWN_COMMAND is answered UNKNOWN, during the load as well, and
a discarded transaction leaves the link IDLE and nothing else changed (R177, R178, R179); on a link that is not open
neither has any effect (R189, R190). MODEL: a command stands for the chip-select period it comes in, so it leaves chip
select active and the link ANSWERING, and a discarded transaction leaves both ended, log entry 19. The KT36 sends 00h
up to and with the turnaround of a transaction, then the status byte, the result length low byte first and the result
bytes, and 00h after them (R176, R177). -/
def Obligations.UntakenTransactionsHaveNoEffect : Prop :=
  (∀ (c : Instr) (p : Port) (ps : List Byte) (s : State),
     (callOf c = some (p, ps) ∨ c = .status p ps → s.linkOpen p = false → exec c s = .next s) ∧
     (callOf c = some (p, ps) → s.linkOpen p = true → s.isReady = false → exec c s = answered s p .notReady [])) ∧
  (∀ (p : Port) (s : State), s.linkOpen p = true →
     (∀ code ps, exec (.unknownCommand p code ps) s = answered s p .unknown []) ∧
     (∀ bytes, exec (.linkTransactionDiscarded p bytes) s =
       .next (s.setPort p { s.port p with link := .idle, select := false }))) ∧
  (∀ (p : Port) (s : State), s.linkOpen p = false →
     (∀ code ps, exec (.unknownCommand p code ps) s = .next s) ∧
     (∀ bytes, exec (.linkTransactionDiscarded p bytes) s = .next s)) ∧
  (∀ (p : Port) (s : State) (a : Answer), (s.answer p a).port p = { s.port p with link := .answering a, select := true }) ∧
  (∀ (lp : Nat) (a : Answer) (n : Nat), a.result.length < 65536 →
     (n < 5 + lp → transactionByte lp a n = 0) ∧ transactionByte lp a (5 + lp) = a.status.code ∧
     word16 (transactionByte lp a (6 + lp)) (transactionByte lp a (7 + lp)) = BitVec.ofNat 16 a.result.length ∧
     (∀ i, transactionByte lp a (8 + lp + i) = a.result.getD i 0))

/-- A command whose status is neither OK nor ACCEPTED has no effect and no result (R178). -/
def Obligations.RefusedCommandHasNoEffect : Prop :=
  ∀ (c : Instr) (p : Port) (ps : List Byte) (s t : State) (a : Answer), callOf c = some (p, ps) → s.takes p →
    exec c s = .next t → (t.port p).link = .answering a → a.status ≠ .ok → a.status ≠ .accepted →
      t = s.answer p a ∧ a.result = []

/-- A parameter length or an index out of range gives BAD_PARAM, and so does every length above 256 (R177, R178):
commands of one index, commands without parameters, commands whose first bytes are indexes, commands whose length is
fixed, and commands whose length a field gives and that are shorter than the shortest one. -/
def Obligations.LengthAndIndexChecks : Prop :=
  ∀ (p : Port) (ps : List Byte) (s : State), s.takes p →
    (∀ x ∈ oneIndexCommands, (∀ b, ps = [b] → x.2 ≤ b.toNat) → exec (x.1 p ps) s = answered s p .badParam []) ∧
    (∀ x ∈ plainCommands, ps ≠ [] → exec (x p ps) s = answered s p .badParam []) ∧
    (∀ x ∈ leadingIndexes, (∃ (i : Nat) (b : Byte) (n : Nat), ps[i]? = some b ∧ x.2[i]? = some n ∧ n ≤ b.toNat) →
      exec (x.1 p ps) s = answered s p .badParam []) ∧
    (∀ x ∈ fixedLengths, ps.length ≠ x.2 → exec (x.1 p ps) s = answered s p .badParam []) ∧
    (∀ x ∈ shortestLengths, ps.length < x.2 → exec (x.1 p ps) s = answered s p .badParam []) ∧
    (∀ c, callOf c = some (p, ps) → 256 < ps.length → exec c s = answered s p .badParam [])

/-- A changing seat command from a port that does not own the seat is refused NOT_OWNER, and CLEAR_FAULT and
CLEAR_RESULTS are refused to the other port of an owned seat (R13). -/
def Obligations.OwnershipIsChecked : Prop :=
  ∀ (p : Port) (k : Fin 4) (s : State), s.takes p →
    (∀ c, ownerCommand c = some (p, k) → (s.record k).owner ≠ some p → exec c s = answered s p .notOwner []) ∧
    ((s.record k).owner = some (otherPort p) →
      exec (.clearFault p [byteOf k.val]) s = answered s p .notOwner [] ∧
      exec (.clearResults p [byteOf k.val]) s = answered s p .notOwner [])

/-- STATUS gives the load state, the configuration source, the port, the overflow flag, the number of notices, ATTN,
the threshold, the seven levels and the rack time, and clears the overflow flag and nothing else (R188); with
parameters it is answered BAD_PARAM. MODEL: ATTN is 0 when asserted and 1 when released, log entry 16. READ_NOTICE
removes the oldest notice and returns it in 14 bytes with the number left, or zeros when there is none; ATTN follows,
the overflow flag stays (R183, R185). The 14 bytes are the fields of the notice in the order of R183. MODEL: the seven
levels stand without a count byte, log entry 32. -/
def Obligations.StatusAndReadNotice : Prop :=
  (∀ (p : Port) (s : State), s.linkOpen p = true →
     exec (.status p []) s = answered (s.setPort p { s.port p with overflow := false }) p .ok
       ([if s.isReady then (1 : Byte) else 0] ++
         (match s.loader.source with
          | none => [0, 0]
          | some .eeprom => [1, 0]
          | some .defaults => [1, 1]) ++
         [match p with
          | .a => 0
          | .b => 1,
          if (s.port p).overflow then 1 else 0, byteOf (s.port p).queue.length,
          if (s.port p).attn then 0 else 1, byteOf (s.port p).threshold.val] ++
         (s.port p).levels.toList.map (fun l => byteOf l.val) ++
         bytes16 s.now.toNat ++ bytes16 (s.now.toNat / 65536)) ∧
     (∀ ps, ps ≠ [] → exec (.status p ps) s = answered s p .badParam [])) ∧
  (∀ (p : Port) (s : State), s.takes p →
     ((s.port p).queue = [] → exec (.readNotice p []) s = answered (s.setPort p
         { s.port p with attn := false }) p .ok ([0] ++ zeros 14 ++ [0])) ∧
     (∀ n rest, (s.port p).queue = n :: rest → ∃ attn,
       exec (.readNotice p []) s = answered (s.setPort p { s.port p with queue := rest, attn := attn }) p .ok
         ([1] ++ eNotice n ++ [byteOf rest.length]) ∧
       (attn = true ↔ ∃ m ∈ rest, (s.port p).threshold < m.level) ∧ (eNotice n).length = 14)) ∧
  (∀ n : Notice, eNotice n =
     [match n.kind with
      | .stepDone => 0
      | .seatState => 1
      | .fault => 2
      | .key => 3
      | .mark => 4
      | .storeDone => 5
      | .config => 6,
      byteOf n.level.val] ++
     optional1 (n.seat.map (·.val)) ++ optional2 (n.stepId.map (·.toNat)) ++ [n.code] ++ optional1 n.count ++
     bytes32 n.time.toNat)

/-- SET_NOTICE_LEVEL sets one level of the caller's port, SET_THRESHOLD sets its threshold and re-judges ATTN over the
notices already queued, both refuse values out of range, and the defaults of cold reset and port reset are those of
R187. -/
def Obligations.NoticeLevelsAndThreshold : Prop :=
  (∀ (p : Port) (s : State), s.takes p →
    (∀ (kind : Fin 7) (level : Fin 16), exec (.setNoticeLevel p [byteOf kind.val, byteOf level.val]) s =
      answered (s.setPort p { s.port p with levels := (s.port p).levels.set kind level }) p .ok []) ∧
    (∀ b c : Byte, 7 ≤ b.toNat ∨ 16 ≤ c.toNat → exec (.setNoticeLevel p [b, c]) s = answered s p .badParam []) ∧
    (∀ th : Fin 16, ∃ attn, exec (.setThreshold p [byteOf th.val]) s =
      answered (s.setPort p { s.port p with threshold := th, attn := attn }) p .ok [] ∧
      (attn = true ↔ ∃ n ∈ (s.port p).queue, th < n.level)) ∧
    (∀ b : Byte, 16 ≤ b.toNat → exec (.setThreshold p [b]) s = answered s p .badParam [])) ∧
  (∀ (p : Port) (s : State) (acc : StoreAccepted),
    ((s.coldReset acc).port p).levels = #v[4, 6, 12, 3, 2, 5, 8] ∧ ((s.coldReset acc).port p).threshold = 0 ∧
    ((s.portReset p).port p).levels = #v[4, 6, 12, 3, 2, 5, 8] ∧ ((s.portReset p).port p).threshold = 0)

/-- Posting a notice to a port: suppressed at level 0, appended with the port's level while the queue holds fewer than
32, else discarded with the overflow flag set; ATTN is brought to agree (R183, R186). A seat notice goes to the seat's
owner, or to both ports of an unowned seat (R184). -/
def Obligations.PostingANotice : Prop :=
  (∀ (r : PortRecord) (n : Notice),
    (r.levels[n.kind.index] = 0 → r.post n = r) ∧
    (r.levels[n.kind.index] ≠ 0 → r.queue.length < 32 → ∃ attn,
      r.post n = { r with queue := r.queue ++ [{ n with level := r.levels[n.kind.index] }], attn := attn } ∧
      (attn = true ↔ ∃ m ∈ r.queue ++ [{ n with level := r.levels[n.kind.index] }], r.threshold < m.level)) ∧
    (r.levels[n.kind.index] ≠ 0 → 32 ≤ r.queue.length → ∃ attn,
      r.post n = { r with overflow := true, attn := attn } ∧
      (attn = true ↔ ∃ m ∈ r.queue, r.threshold < m.level))) ∧
  (∀ (s : State) (k : Fin 4) (n : Notice),
    (∀ p, (s.record k).owner = some p → s.postSeat k n = s.setPort p ((s.port p).post n)) ∧
    ((s.record k).owner = none →
      s.postSeat k n = (s.setPort .a ((s.port .a).post n)).setPort .b ((s.port .b).post n)))

/-- PORT_RESET resets the caller's own port and is answered OK; the fall of a reset input resets its port after the
load, resets the port record alone during the load, and holds the port's link until the release (R189). MODEL: during
the load only the port record is reset and while the rack reset is held only the level is taken, log entry 26. A cold
reset holds every block at its reset values: port records (R175), seats (R22), outputs, frame slots and links (R94,
R102), capture units (R132, R146), results (R166), pool, tables, converter, panel RAM, modes, saver, lamps, prompts,
cursors and key levels (R148, R165). It clears pattern memory, keeps the EEPROM but for the words of a store it
aborts, each as it was or as written (R107), and stops rack time; its release starts the load at rack time 0 (R190).
MODEL: the pins keep their levels and waiting commands their places, log entry 7. -/
def Obligations.ResetsAreTaken : Prop :=
  (∀ (p : Port) (s : State),
     (s.takes p → exec (.portReset p []) s = answered (s.portReset p) p .ok []) ∧
     (s.loader.phase = .ready →
       exec (.portResetInput p) s = .next ((s.setPort p { s.port p with resetActive := true }).portReset p)) ∧
     (s.loader.phase = .loading →
       exec (.portResetInput p) s =
         .next (s.setPort p { PortRecord.reset with select := (s.port p).select, resetActive := true })) ∧
     (s.loader.phase = .held →
       exec (.portResetInput p) s = .next (s.setPort p { s.port p with resetActive := true })) ∧
     exec (.portResetRelease p) s = .next (s.setPort p { s.port p with resetActive := false })) ∧
  (∀ (s : State) (acc : StoreAccepted), ∃ t, exec (.coldReset acc) s = .next t ∧
     t.loader = { phase := .held, source := none, clampTimeout := 1500, unclampTimeout := 1500, store := none } ∧
     t.clock = { ms := 0, us := 0 } ∧ t.pending = s.pending ∧ t.inputs = s.inputs ∧ t.pattern = [] ∧
     (∀ r, t.grant r = .none) ∧ (∀ i, t.program i = { program := none, uses := 0 }) ∧
     (∀ i, t.limit i = { limit := none, uses := 0 }) ∧
     (∀ j, t.cal j = { offset := 0, gain := 4096, source := .default }) ∧
     (∀ c, t.channel c = Channel.free) ∧ (∀ m, t.slot m = MeasSlot.free) ∧
     t.converter = .idle ∧ t.rotation = 5 ∧ t.waitList = [] ∧
     (s.loader.store = none → t.eeprom = s.eeprom) ∧
     (∀ x, s.loader.store = some x → Memory.wf s.eeprom → ∀ a, Memory.read t.eeprom a =
       if a = 0 then (if acc.signature then 0x5A36 else Memory.read s.eeprom 0)
       else if a = 2 * x.entry.val + 1 then
         (if acc.offset then BitVec.ofInt 16 x.offset else Memory.read s.eeprom a)
       else if a = 2 * x.entry.val + 2 then (if acc.gain then x.gain else Memory.read s.eeprom a)
       else Memory.read s.eeprom a) ∧
     (∀ p, t.port p = { link := .idle, select := (s.port p).select, queue := [], levels := #v[4, 6, 12, 3, 2, 5, 8],
                        threshold := 0, overflow := false, attn := false, resetActive := (s.port p).resetActive } ∧
       t.cursor p = { page := 0, column := 0, latch := 0, rmw := false, saved := 0 }) ∧
     t.panel.ram = [] ∧ t.panel.display = .on ∧ t.panel.allPoints = .normal ∧ t.panel.saver = .none ∧
     (∀ y, t.key y = { level := false, raw := (s.key y).raw, since := { ms := 0, us := 0 } }) ∧
     (∀ k, t.lamp k = { mode := .off, phase := 0 } ∧
       t.prompt k = { isOpen := false, expected := none, width := none } ∧
       (t.record k).state = .vacant ∧ (t.record k).owner = none ∧ (t.record k).cause = none ∧
       (t.record k).serial = none ∧ (t.record k).actuator = .open ∧ (t.record k).supply = .off ∧
       (t.record k).deadline = none ∧ (t.record k).snapshot = none ∧
       (∀ x, (t.record k).sensor x =
         { level := false, raw := ((s.record k).sensor x).raw, since := { ms := 0, us := 0 } }) ∧
       (t.seat k).queue = [] ∧ (t.seat k).running = none ∧ (t.seat k).outputs = Outputs.reset ∧
       (∀ f, t.frame k f = { enable := false, ident := 0, length := 0, period := 1, payload := Vector.replicate 8 0,
                             last := .none, nextDue := none, pending := false }) ∧
       (t.seat k).link = .idle ∧
       (∀ i : Fin 8, ((t.capture k).filters[i]) = { enable := false, ident := 0, mask := 0 }) ∧
       (t.capture k).queue = [] ∧ (t.capture k).acceptLong = false ∧ (t.capture k).overflow = false ∧
       (t.capture k).expectState = .inactive ∧ (t.capture k).expectation = none ∧ (t.capture k).matchCount = 0 ∧
       (t.capture k).afterSeen = false ∧ (t.capture k).verdict = none ∧
       (t.seat k).results = { entries := [], summary := .none, truncated := false })) ∧
  (∀ s : State, s.loader.phase = .held → exec .rackResetRelease s =
     .next { s with loader := { s.loader with phase := .loading }, clock := Instant.zero })

/-- What a port reset leaves: the port's cursor at its reset values, its seats unowned and out of TESTING into HOLD
with their queues kept, its grants dropped, and the other port's owners, cursor and grants, the memory and the tables
untouched (R23, R61, R148, R189). A running step of a seat of the port is recorded ABORTED with cause PORT_RESET, and
its snapshot taken; a waiting seat leaves the wait list without a result (R23, R44 to R46). With one seat of the port
in TESTING and no seat waiting, its STEP_DONE and then its SEAT_STATE go to both ports, the reset port's queue having
been emptied first (R23). With none in TESTING and no seat waiting nothing changes but the port record, the cursor,
the owners and the grants. MODEL: the order of the seats is free and the arbiter runs once after them, log entries 11
and 12. -/
def Obligations.PortResetEffects : Prop :=
  ∀ (p : Port) (s : State), s.StepsLawful →
    (s.portReset p).cursor p = { page := 0, column := 0, latch := 0, rmw := false, saved := 0 } ∧
    (s.portReset p).cursor (otherPort p) = s.cursor (otherPort p) ∧
    (∀ k, (s.record k).owner = some p →
      ((s.portReset p).record k).owner = none ∧ ((s.portReset p).seat k).queue = (s.seat k).queue ∧
      ((s.portReset p).record k).serial = (s.record k).serial ∧
      ((s.record k).state = .testing →
        ((s.portReset p).record k).state = .hold ∧ ((s.portReset p).record k).supply = .on ∧
        ((s.portReset p).record k).actuator = .closed ∧ ((s.portReset p).seat k).running = none) ∧
      ((s.record k).state ≠ .testing → (s.portReset p).record k = { s.record k with owner := none })) ∧
    (∀ k, (s.record k).owner ≠ some p → ((s.portReset p).record k).owner = (s.record k).owner) ∧
    (∀ r, (s.portReset p).grant r =
      match s.grant r with
      | .none => .none
      | .a => if p = .a then .none else .a
      | .b => if p = .b then .none else .b
      | .both => if p = .a then .b else .a) ∧
    (s.portReset p).pattern = s.pattern ∧ (s.portReset p).loader = s.loader ∧
    (s.portReset p).calibration = s.calibration ∧ (s.portReset p).eeprom = s.eeprom ∧
    (∀ i, ((s.portReset p).program i).program = (s.program i).program) ∧
    (∀ i, ((s.portReset p).limit i).limit = (s.limit i).limit) ∧
    (∀ k, (s.record k).owner = some p → (s.record k).state = .testing →
      k ∉ (s.portReset p).waitList ∧
      ((s.seat k).running = none → ((s.portReset p).seat k).results = (s.seat k).results ∧
        ((s.portReset p).record k).snapshot = (s.record k).snapshot) ∧
      (∀ r, (s.seat k).running = some r →
        (∃ x, ((s.portReset p).record k).snapshot = some x ∧ x.cause = .portReset ∧ x.stepId = r.step.id ∧
          x.time = s.now) ∧
        (∃ e, ((s.portReset p).seat k).results = (s.seat k).results.append e ∧ e.stepId = r.step.id ∧
          e.outcome = .aborted ∧ e.deciding = .noPart ∧ e.cause = some .portReset ∧ e.start = r.start ∧
          e.elapsed = s.now - r.start) ∧
        (s.waitList = [] → (∀ j, j ≠ k → (s.record j).owner = some p → (s.record j).state ≠ .testing) →
          ((s.portReset p).record k).snapshot = some (s.snapshotOf k r .portReset) ∧
          ∀ q, (s.portReset p).port q =
            ((if q = p then { PortRecord.reset with select := (s.port p).select, resetActive := (s.port p).resetActive }
              else s.port q).post
              { kind := .stepDone, level := 0, seat := some k, stepId := some r.step.id, code := 7, count := none,
                time := s.now }).post
              { kind := .seatState, level := 0, seat := some k, stepId := none, code := 6, count := none,
                time := s.now }))) ∧
    (s.waitList = [] → (∀ k, (s.record k).owner = some p → (s.record k).state ≠ .testing) →
      (s.portReset p).port p =
        { PortRecord.reset with select := (s.port p).select, resetActive := (s.port p).resetActive } ∧
      (s.portReset p).port (otherPort p) = s.port (otherPort p) ∧
      (∀ k, { (s.portReset p).seat k with record := (s.seat k).record } = s.seat k) ∧
      (∀ k, (s.record k).owner ≠ some p → (s.portReset p).record k = s.record k) ∧
      { (s.portReset p).panel with cursorA := s.panel.cursorA, cursorB := s.panel.cursorB } = s.panel ∧
      { s.portReset p with portA := s.portA, portB := s.portB, seats := s.seats, panel := s.panel, grants := s.grants,
                           draws := s.draws } = s)

/-- The load ends at rack time 40: the loader is READY, the source and the timeouts come from a signed EEPROM that
answered and from the defaults otherwise, pattern memory is clear, and each seat takes its state from its levels,
UNCLAMPING with the deadline of the timeout just loaded (R22, R60, R104, R191, R192). MODEL: the EEPROM is read and
the pattern memory cleared as one at the end of the load, log entry 21. -/
def Obligations.LoadEndConfigures : Prop :=
  ∀ (s : State) (answers used : Bool), s.loader.phase = .loading → msReached s.now 40 = true →
    used = (answers && (Memory.read s.eeprom 0 == 0x5A36)) →
    ∃ t, exec (.loadEnd answers) s = .next t ∧ t.loader.phase = .ready ∧
      t.loader.source = some (if used then .eeprom else .defaults) ∧
      t.loader.clampTimeout = (if used then max 100 (min 10000 (Memory.read s.eeprom 65).toNat) else 1500) ∧
      t.loader.unclampTimeout = (if used then max 100 (min 10000 (Memory.read s.eeprom 66).toNat) else 1500) ∧
      t.pattern = [] ∧ t.eeprom = s.eeprom ∧
      (used = false → t.calibration = s.calibration) ∧
      (used = true → ∀ j : Fin 32, (t.cal j).offset =
          max (-2048) (min 2047 (Memory.read s.eeprom (2 * j.val + 1)).toInt) ∧
        (t.cal j).gain = Memory.read s.eeprom (2 * j.val + 2) ∧ (t.cal j).source = .eeprom) ∧
      (∀ k, (t.record k).owner = (s.record k).owner ∧
        ((s.record k).confirm.level = true → (t.record k).state = .unclamping ∧ (t.record k).actuator = .open ∧
          (t.record k).deadline = some (msAfter s.now t.loader.unclampTimeout)) ∧
        ((s.record k).confirm.level = false → (s.record k).present.level = true → (t.record k).state = .loaded) ∧
        ((s.record k).confirm.level = false → (s.record k).present.level = false → (t.record k).state = .vacant)) ∧
      (∀ p, t.port p = (s.port p).post
        { kind := .config, level := 0, seat := none, stepId := none, code := if used then 0 else 1, count := none,
          time := s.now })

/-! ### Reads -/

/-- Every pure read is answered OK with its record's bytes, from either port whatever the owner and the state, and
changes nothing else. Each spells its record field by field, READ_PROGRAM and READ_LIMIT as R182 lays the record out,
READ_SNAPSHOT as R47 lists it; an absent optional field is zeros, and a time already reached is 0 ms left (R21, R47,
R48, R49, R84, R93, R101, R115, R164, R170, R171, R180, R182). MODEL: the time left to a frame slot's due is the
difference of two millisecond counts, log entry 4; absent optional fields of varying length and an absent serial, log
entry 15; the order of the key levels, entry 16; READ_STEP_STATE of an empty queue gives the need 0 and 0, entry 18;
which fields of READ_CHANNEL and READ_SLOT are optional, entry 24; the numbers of owners and of the converter's states
and the field order of READ_LIMIT, entry 27; one presence byte for the store in READ_CALIBRATION and for the kept
channel with its output, and no count bytes in READ_OUTPUTS, READ_FRAME_SLOT, READ_REGIONS and READ_PANEL_STATE, entry
32. -/
def Obligations.PureReadsChangeNothing : Prop :=
  (∀ (p : Port) (s : State), s.takes p →
     (∀ k : Fin 4,
       exec (.readSeat p [byteOf k.val]) s = answered s p .ok (s.seatBytes k) ∧
       exec (.readStepState p [byteOf k.val]) s = answered s p .ok (s.stepStateBytes k) ∧
       exec (.readSnapshot p [byteOf k.val]) s = answered s p .ok
         (match (s.record k).snapshot with
          | none => zeros 14
          | some x => [1] ++ eSnapshot x) ∧
       exec (.readOutputs p [byteOf k.val]) s = answered s p .ok (s.outputBytes k) ∧
       exec (.readSummary p [byteOf k.val]) s = answered s p .ok (s.summaryBytes k) ∧
       (∀ f : Fin 8, exec (.readFrameSlot p [byteOf k.val, byteOf f.val]) s = answered s p .ok (s.frameSlotBytes k f)) ∧
       (∀ i : Fin 64, exec (.readResult p [byteOf k.val, byteOf i.val]) s =
         answered s p .ok ((s.seat k).results.entryBytes i.val))) ∧
     exec (.readRegions p []) s = answered s p .ok (s.grants.toList.map (fun g => byteOf g.code)) ∧
     (∀ i : Fin 48, exec (.readProgram p [byteOf i.val]) s =
       answered s p .ok
         ((match (s.program i).program with
           | none => zeros 13
           | some x => [1] ++ eProgram x) ++ [byteOf (s.program i).uses])) ∧
     (∀ c : Fin 8, exec (.readChannel p [byteOf c.val]) s = answered s p .ok (s.channelBytes c)) ∧
     (∀ m : Fin 6, exec (.readSlot p [byteOf m.val]) s = answered s p .ok (s.slotBytes m)) ∧
     (∀ j : Fin 32, exec (.readCalibration p [byteOf j.val]) s =
       answered s p .ok (eInt16 (s.cal j).offset ++ bytes16 (s.cal j).gain.toNat ++ [byteOf (s.cal j).source.code] ++
         (match s.loader.store with
          | none => [0, 0, 0, 0, 0]
          | some x => [1, byteOf x.entry.val, byteOf (portCode x.port)] ++ bytes16 (msLeft s.now x.finish)))) ∧
     (∀ i : Fin 256, exec (.readLimit p [byteOf i.val]) s =
       answered s p .ok
         ((match (s.limit i).limit with
           | none => zeros 11
           | some x => [1] ++ eLimit x) ++ [byteOf (s.limit i).uses] ++
         (match (s.limit i).limit with
          | none => zeros 8
          | some l => eInt32 (l.low + l.guard) ++ eInt32 (l.high - l.guard)))) ∧
     exec (.readPanelState p []) s = answered s p .ok
       ([byteOf s.panel.display.code, byteOf s.panel.allPoints.code, byteOf s.panel.saver.code] ++
         seatIds.flatMap (fun k =>
           [byteOf (s.lamp k).mode.code, byteOf (s.effectiveLamp k).code, if (s.prompt k).isOpen then 1 else 0] ++
             optional1 ((s.prompt k).expected.map Expected.code) ++ optional1 (s.prompt k).width) ++
         seatIds.flatMap (fun k =>
           [if (s.key (.answer k .yes)).level then 1 else 0, if (s.key (.answer k .no)).level then 1 else 0]) ++
         [if (s.key .stop).level then 1 else 0] ++
         [byteOf (s.cursor p).page.val, byteOf (s.cursor p).column.val, (s.cursor p).latch,
          if (s.cursor p).rmw then 1 else 0, byteOf (s.cursor p).saved.val])) ∧
  (∀ (s : State) (k : Fin 4),
     s.seatBytes k =
       [byteOf (s.record k).state.code, byteOf (ownerCode (s.record k).owner)] ++
       (match (s.record k).cause with
        | none => [0, 0]
        | some c => [1, byteOf c.code]) ++
       [byteOf (s.record k).actuator.code, byteOf (s.record k).supply.code,
        if (s.record k).present.level then 1 else 0, if (s.record k).confirm.level then 1 else 0,
        if (s.record k).trip.level then 1 else 0] ++
       (match (s.record k).deadline with
        | none => [0, 0, 0]
        | some t => [1] ++ bytes16 (if msReached s.now t then 0 else (t - s.now).toNat)) ++
       (match (s.record k).serial with
        | none => [0, 0]
        | some x => [1, byteOf x.length] ++ x) ∧
     s.summaryBytes k =
       [byteOf (s.seat k).results.summary.code, byteOf (s.seat k).results.entries.length,
        if (s.seat k).results.truncated then 1 else 0] ++
       (match (s.record k).serial with
        | none => [0, 0]
        | some x => [1, byteOf x.length] ++ x) ++
       [if (s.seat k).results.entries ≠ [] ∨ (s.seat k).results.summary ≠ .none then 1 else 0] ∧
     s.stepStateBytes k =
       [byteOf (s.seat k).queue.length] ++ optional2 ((s.seat k).queue.head?.map (fun st => st.id.toNat)) ++
       optional1 (if k ∈ s.waitList then some (s.waitList.idxOf k + 1) else none) ++
       (match (s.seat k).queue with
        | [] => [0, 0]
        | st :: _ => [byteOf (s.need k st).1, byteOf (s.need k st).2]) ++
       (match s.keptChannel k with
        | none => [0, 0, 0]
        | some c => [1, byteOf c.val, byteOf (((s.channel c).target.map Target.code).getD 0)]) ++
       (match (s.seat k).running with
        | none => zeros 10
        | some r =>
          [1] ++ bytes16 r.step.id.toNat ++ bytes16 (s.now - r.start).toNat ++ bytes16 (msLeft s.now r.deadline) ++
            [byteOf r.channels.length] ++ r.channels.map (fun c => byteOf c.val) ++
            [byteOf r.slots.length] ++ r.slots.map (fun m => byteOf m.val) ++
            [byteOf r.verdicts.length] ++ r.verdicts.flatMap (fun v => optional1 (v.map StepOutcome.rank))) ∧
     s.outputBytes k =
       bytes16 (s.seat k).outputs.ao0.live.toNat ++ optional1 ((s.driver k .ao0).map (·.val)) ++
         optional2 ((s.seat k).outputs.ao0.lastSet.map (·.toNat)) ++
       bytes16 (s.seat k).outputs.ao1.live.toNat ++ optional1 ((s.driver k .ao1).map (·.val)) ++
         optional2 ((s.seat k).outputs.ao1.lastSet.map (·.toNat)) ++
       bytes16 (s.seat k).outputs.fo0.live.toNat ++ optional1 ((s.driver k .fo0).map (·.val)) ++
         optional2 ((s.seat k).outputs.fo0.lastSet.map (·.toNat)) ++
       bytes16 (s.seat k).outputs.fo1.live.toNat ++ optional1 ((s.driver k .fo1).map (·.val)) ++
         optional2 ((s.seat k).outputs.fo1.lastSet.map (·.toNat)) ++
       [(s.seat k).outputs.dl.live] ++ optional1 ((s.driver k .dl).map (·.val)) ++
         optional1 ((s.seat k).outputs.dl.lastSet.map (·.toNat)) ++
       ids8.flatMap (fun f => optional1 ((s.driver k (.fs f)).map (·.val))) ∧
     (∀ f, s.frameSlotBytes k f =
       [if (s.frame k f).enable then 1 else 0] ++ bytes16 (s.frame k f).ident.toNat ++
       [byteOf (s.frame k f).length] ++ bytes16 (s.frame k f).period ++ (s.frame k f).payload.toList ++
       [byteOf (s.frame k f).last.code, if (s.frame k f).pending then 1 else 0] ++
       optional2 ((s.frame k f).nextDue.map (fun t => if Instant.reached s.clock t then 0 else (t.ms - s.now).toNat)) ++
       (match (s.seat k).link with
        | .idle => ([0] : List Byte)
        | .sending g _ _ _ => if g = f then [1] else [0]) ++
       optional1 ((s.driver k (.fs f)).map (·.val)) ++
       [byteOf (ids8.filter (fun c => (s.channel c).state ≠ .free ∧ (s.channel c).seat = some k ∧
         (s.channel c).trigger = some (.frame f))).length]) ∧
     (∀ i, (s.seat k).results.entryBytes i =
       match (s.seat k).results.entries[i]? with
       | none => [0, byteOf (s.seat k).results.entries.length] ++ zeros 17
       | some e => [1, byteOf (s.seat k).results.entries.length] ++ bytes16 e.stepId.toNat ++
           [byteOf e.outcome.rank, byteOf e.deciding.code] ++ optional1 (e.cause.map Cause.code) ++
           [byteOf e.measurements.length] ++
           e.measurements.flatMap (fun m =>
             optional2 (m.value.map (fun v => (BitVec.ofInt 16 v).toNat)) ++ bytes16 m.samples) ++
           optional1 e.matchCount ++ optional1 (e.answer.map yesNoCode) ++ bytes32 e.start.toNat ++
           bytes16 e.elapsed.toNat)) ∧
  (∀ (s : State) (c : Fin 8), s.channelBytes c =
     [byteOf (s.channel c).state.code] ++ optional1 ((s.channel c).seat.map (·.val)) ++
     optional1 ((s.channel c).entry.map (·.val)) ++ optional1 ((s.channel c).target.map Target.code) ++
     (match (s.channel c).trigger with
      | none => [0, 0, 0, 0]
      | some (.timer n) => [1, 0] ++ bytes16 n
      | some (.frame f) => [1, 1] ++ bytes16 f.val
      | some (.chain e) => [1, 2] ++ bytes16 e.val) ++
     optional1 ((s.channel c).program.map (·.val)) ++ bytes16 (s.channel c).address.toNat ++
     bytes16 (s.channel c).remaining ++ optional2 ((s.channel c).shadow.map (·.toNat)) ++
     [if (s.channel c).kept then 1 else 0] ++ optional2 ((s.channel c).nextTimer.map (fun t => msLeft s.now t))) ∧
  (∀ (s : State) (m : Fin 6), s.slotBytes m =
     [byteOf (s.slot m).state.code] ++ optional1 ((s.slot m).seat.map (·.val)) ++
     optional1 ((s.slot m).measurement.map (·.val)) ++ optional1 ((s.slot m).input.map (·.val)) ++
     optional1 ((s.slot m).limit.map (·.val)) ++
     (match (s.slot m).gate with
      | none => [0, 0, 0, 0]
      | some .start => [1, 0, 0, 0]
      | some (.delay d) => [1, 1] ++ bytes16 d
      | some (.mark e) => [1, 2] ++ bytes16 e.val) ++
     optional2 ((s.slot m).gateTime.map (fun t => msLeft s.now t)) ++
     optional2 ((s.slot m).y.map (fun v => (BitVec.ofInt 16 v).toNat)) ++
     [byteOf (s.slot m).run, if (s.slot m).runMarginal then 1 else 0, byteOf (s.slot m).zone.code] ++
     optional2 ((s.slot m).extreme.map (fun v => (BitVec.ofInt 16 v).toNat)) ++ bytes16 (s.slot m).samples ++
     optional2 ((s.slot m).nextDue.map (fun t => msLeft s.now t)) ++ [if (s.slot m).due then 1 else 0] ++
     (match s.converter with
      | .idle => [0, 0, 0]
      | .converting n _ _ _ _ => [1, 1, byteOf n.val]) ++
     [byteOf s.rotation.val]) ∧
  (∀ x : Snapshot, eSnapshot x =
     [byteOf x.cause.code] ++ bytes16 x.stepId.toNat ++ bytes32 x.time.toNat ++
     [byteOf x.channels.length] ++
     x.channels.flatMap (fun y =>
       match y with
       | none => zeros 10
       | some c => [1, byteOf c.channel.val] ++ bytes16 c.address.toNat ++ bytes16 c.remaining ++
           optional2 (c.shadow.map (·.toNat)) ++ [byteOf c.state.code]) ++
     [byteOf x.measurements.length] ++
     x.measurements.flatMap (fun m =>
       optional2 (m.y.map (fun v => (BitVec.ofInt 16 v).toNat)) ++ [byteOf m.run] ++ bytes16 m.samples ++
         [byteOf m.zone.code]) ++
     optional1 x.matchCount ++ optional1 (x.prompt.map SnapshotPrompt.code)) ∧
  (∀ x : Program, eProgram x =
     [if x.direction = .down then 1 else 0, byteOf x.step, byteOf x.wrap] ++ bytes16 x.start.toNat ++
     bytes16 x.count ++ [byteOf x.block, if x.mode = .repeat then 1 else 0] ++ bytes16 x.mark ++
     [if x.markNotice then 1 else 0]) ∧
  (∀ x : Limit, eLimit x =
     [match x.mode with
      | .settle => (0 : Byte)
      | .peakMax => 1
      | .peakMin => 2] ++
     bytes16 (BitVec.ofInt 16 x.low).toNat ++ bytes16 (BitVec.ofInt 16 x.high).toNat ++ bytes16 x.guard ++
     [byteOf x.settle, byteOf x.shift, byteOf x.interval])

/-! ### Seats -/

/-- CLAIM_SEAT makes the caller the owner of a seat that the other port does not own, in every state, and is refused
IN_USE where it does (R11). RELEASE_SEAT makes the owner NONE outside TESTING and is refused WRONG_STATE in it (R12).
Neither changes anything else. CLAMP from the owner: in LOADED without pending results it enters CLAMPING with the
deadline and ACCEPTED, or CLAMPED at once with OK when the confirm is already closed; pending results refuse it
RESULTS_PENDING, another state WRONG_STATE (R14, R174). UNCLAMP is taken in CLAMPED with ACCEPTED and a deadline, else
refused WRONG_STATE (R15). POWER_ON is taken from the owner in CLAMPED while the trip is CLEAR and enters POWERED;
POWER_OFF in POWERED or HOLD rests the outputs and enters CLAMPED; otherwise each is refused WRONG_STATE (R16). START
in POWERED and RESUME in HOLD, from the owner with a step queued, take the seat into TESTING and are answered OK; with
an empty queue or in another state each is refused WRONG_STATE (R17, R19). -/
def Obligations.SeatStateCommands : Prop :=
  (∀ (p : Port) (k : Fin 4) (s : State), s.takes p →
     ((s.record k).owner ≠ some (otherPort p) → exec (.claimSeat p [byteOf k.val]) s =
       answered (s.setRecord k { s.record k with owner := some p }) p .ok []) ∧
     ((s.record k).owner = some (otherPort p) → exec (.claimSeat p [byteOf k.val]) s = answered s p .inUse []) ∧
     ((s.record k).owner = some p → (s.record k).state ≠ .testing → exec (.releaseSeat p [byteOf k.val]) s =
       answered (s.setRecord k { s.record k with owner := none }) p .ok []) ∧
     ((s.record k).owner = some p → (s.record k).state = .testing →
       exec (.releaseSeat p [byteOf k.val]) s = answered s p .wrongState [])) ∧
  (∀ (p : Port) (k : Fin 4) (s : State), s.takes p → (s.record k).owner = some p →
     ((s.record k).state ≠ .loaded → exec (.clamp p [byteOf k.val]) s = answered s p .wrongState []) ∧
     ((s.record k).state = .loaded → (s.seat k).results.entries ≠ [] ∨ (s.seat k).results.summary ≠ .none →
       exec (.clamp p [byteOf k.val]) s = answered s p .resultsPending []) ∧
     ((s.record k).state = .loaded → (s.seat k).results.entries = [] → (s.seat k).results.summary = .none →
       exec (.clamp p [byteOf k.val]) s =
         if (s.record k).confirm.level then answered (s.enterState k .clamped none none) p .ok []
         else answered (s.enterState k .clamping (some (msAfter s.now s.loader.clampTimeout)) none) p .accepted []) ∧
     ((s.record k).state = .clamped → exec (.unclamp p [byteOf k.val]) s =
       answered (s.enterState k .unclamping (some (msAfter s.now s.loader.unclampTimeout)) none) p .accepted []) ∧
     ((s.record k).state ≠ .clamped → exec (.unclamp p [byteOf k.val]) s = answered s p .wrongState [])) ∧
  (∀ (p : Port) (k : Fin 4) (s : State), s.takes p → (s.record k).owner = some p →
     ((s.record k).state = .clamped → (s.record k).trip.level = false →
       exec (.powerOn p [byteOf k.val]) s = answered (s.enterState k .powered none none) p .ok []) ∧
     ((s.record k).state ≠ .clamped ∨ (s.record k).trip.level = true →
       exec (.powerOn p [byteOf k.val]) s = answered s p .wrongState []) ∧
     ((s.record k).state = .powered ∨ (s.record k).state = .hold → exec (.powerOff p [byteOf k.val]) s =
       answered ((s.setOutputs k (s.seat k).outputs.restAll).enterState k .clamped none none) p .ok []) ∧
     ((s.record k).state ≠ .powered → (s.record k).state ≠ .hold →
       exec (.powerOff p [byteOf k.val]) s = answered s p .wrongState [])) ∧
  (∀ (p : Port) (k : Fin 4) (s : State), s.takes p → (s.record k).owner = some p →
     ((s.record k).state = .powered → (s.seat k).queue ≠ [] →
       exec (.start p [byteOf k.val]) s = answered (s.enterTesting k) p .ok []) ∧
     ((s.record k).state ≠ .powered ∨ (s.seat k).queue = [] →
       exec (.start p [byteOf k.val]) s = answered s p .wrongState []) ∧
     ((s.record k).state = .hold → (s.seat k).queue ≠ [] →
       exec (.resume p [byteOf k.val]) s = answered (s.enterTesting k) p .ok []) ∧
     ((s.record k).state ≠ .hold ∨ (s.seat k).queue = [] →
       exec (.resume p [byteOf k.val]) s = answered s p .wrongState []))

/-- Entering a state sets both outputs of the seat as the state fixes them, the cause absent and the deadline as
given, posts one SEAT_STATE notice along the seat's route, and changes no other field but the phase of the seat's lamp
(R2, R10): the phase starts afresh when the effective mode of the lamp changes and stands when it does not, and the
lamps of the other seats keep theirs (R160). MODEL: R160 gives a fresh period to a lamp that becomes SLOW or FAST;
that the phase is set to 0 at a change to OFF or STEADY as well is log entry 23. -/
def Obligations.EnteringASeatState : Prop :=
  ∀ (s : State) (k : Fin 4) (st : SeatState) (d : Option RackTime) (n : Option Nat), st ≠ .fault →
    (s.enterState k st d n).record k =
      { s.record k with state := st, cause := none, actuator := st.actuator, supply := st.supply, deadline := d } ∧
    (∀ j, { (s.enterState k st d n).seat j with record := (s.seat j).record } = s.seat j) ∧
    (∀ j, j ≠ k → (s.enterState k st d n).record j = s.record j) ∧
    (∀ q, (s.enterState k st d n).port q =
      if (s.record k).owner = some (otherPort q) then s.port q
      else (s.port q).post { kind := .seatState, level := 0, seat := some k, stepId := none, code := byteOf st.code,
                             count := n, time := s.now }) ∧
    (∀ j, ((s.enterState k st d n).lamp j).mode = (s.lamp j).mode) ∧
    (∀ j, j ≠ k → (s.enterState k st d n).lamp j = s.lamp j) ∧
    ((s.enterState k st d n).lamp k).phase =
      (if s.effectiveLamp k = (if (s.prompt k).isOpen then .fast else (s.lamp k).mode) then (s.lamp k).phase else 0) ∧
    { (s.enterState k st d n).panel with lamps := s.panel.lamps } = s.panel ∧
    { s.enterState k st d n with seats := s.seats, panel := s.panel, portA := s.portA, portB := s.portB } = s

/-- Entering TESTING rests the outputs and starts the frame schedules (R90, R96). MODEL: a first due is the moment of
entry and a period, to the microsecond (R99), log entry 4. Behind other waiting seats, or with the need not covered,
the seat joins the tail of the wait list and its step stays queued (R28, R30). MODEL: a seat in TESTING has its head
step considered as the last stage of the event, log entry 13. With an empty wait list and the need covered the head
step leaves the queue and starts: a program or limit that is not written ends it at once with BAD_REFERENCE, a bitmap
region not granted with REGION_DENIED, and its fail policy follows (R32, R33, R41), under CONTINUE with the next step
behind it started at once; otherwise it runs with its start time and window deadline, a channel is bound ARMED for
each entry, a slot for each measurement, SAMPLING when its gate opens at once, its expectation is watched and its
prompt open (R34, R35, R68, R110). A TIMER entry alone in its step takes its first trigger and its first move at once,
and its next trigger one period on; with the region of that move not granted the step ends at once with REGION_DENIED
(R35, R44, R58, R71; the first move belongs to the trigger, log entry 10). -/
def Obligations.EnteringTesting : Prop :=
  (∀ (s : State) (k : Fin 4), (s.seat k).queue ≠ [] → (s.seat k).running = none → k ∉ s.waitList →
     (s.waitList ≠ [] ∨ s.covered k = false) →
     ((s.enterTesting k).record k).state = .testing ∧ ((s.enterTesting k).record k).supply = .on ∧
     ((s.enterTesting k).record k).actuator = .closed ∧
     (s.enterTesting k).waitList = s.waitList ++ [k] ∧ ((s.enterTesting k).seat k).queue = (s.seat k).queue ∧
     ((s.enterTesting k).seat k).running = none ∧
     ((s.enterTesting k).seat k).outputs.ao0.live = 0 ∧ ((s.enterTesting k).seat k).outputs.ao1.live = 0 ∧
     ((s.enterTesting k).seat k).outputs.fo0.live = 0 ∧ ((s.enterTesting k).seat k).outputs.fo1.live = 0 ∧
     ((s.enterTesting k).seat k).outputs.dl.live = 0 ∧
     (∀ f, (s.enterTesting k).frame k f =
       { s.frame k f with
         pending := false,
         nextDue := if (s.frame k f).enable then some (s.clock.afterMs (s.frame k f).period) else none }) ∧
     (∀ j, j ≠ k → (s.enterTesting k).seat j = s.seat j)) ∧
  (∀ (s : State) (k : Fin 4) (st : Step) (rest : List Step), (s.seat k).queue = st :: rest →
     (s.covered k = true ↔ (s.need k st).1 ≤ s.freeChannelCount ∧ (s.need k st).2 ≤ s.freeSlotCount) ∧
     (s.referencesOk st = true ↔ (∀ e ∈ st.entries, (s.program e.program).program ≠ none) ∧
       ∀ x ∈ st.measurements, (s.limit x.limit).limit ≠ none) ∧
     (s.promptGranted k st = true ↔ ∀ pr, st.prompt = some pr → ∀ i, i < pr.width →
       ∃ p, (s.record k).owner = some p ∧
         (s.grant (regionOf (BitVec.ofNat 14 (pr.addr.toNat + i)))).grants p = true)) ∧
  (∀ (s : State) (k : Fin 4) (st : Step) (rest : List Step) (c : Cause), (s.seat k).queue = st :: rest →
     (s.seat k).running = none → s.waitList = [] → s.covered k = true → (st.policy = .holdSeat ∨ rest = []) →
     (s.referencesOk st = false ∧ c = .badReference) ∨
       (s.referencesOk st = true ∧ s.promptGranted k st = false ∧ c = .regionDenied) →
     ((s.enterTesting k).record k).state = (if st.policy = .holdSeat then .hold else .powered) ∧
     ((s.enterTesting k).seat k).queue = [] ∧ ((s.enterTesting k).seat k).running = none ∧
     (∀ j, (s.enterTesting k).channel j =
       if (s.channel j).onSeat k = true then Channel.free else s.channel j) ∧
     ∃ e, ((s.enterTesting k).seat k).results = (s.seat k).results.append e ∧ e.stepId = st.id ∧
       e.outcome = .aborted ∧ e.deciding = .noPart ∧ e.cause = some c ∧ e.start = s.now ∧ e.elapsed = 0) ∧
  (∀ (s : State) (k : Fin 4) (st : Step) (rest : List Step), (s.seat k).queue = st :: rest →
     (s.seat k).running = none → s.waitList = [] → (s.need k st).1 ≤ s.freeChannelCount →
     (s.need k st).2 ≤ s.freeSlotCount → s.referencesOk st = true → s.promptGranted k st = true →
     (∀ e ∈ st.entries, ∀ n, e.trigger ≠ .timer n) →
     ((s.enterTesting k).record k).state = .testing ∧ ((s.enterTesting k).seat k).queue = rest ∧
     (s.enterTesting k).waitList = [] ∧
     (∀ e, st.expectation = some e → ((s.enterTesting k).capture k).expectState = .watching ∧
       ((s.enterTesting k).capture k).expectation = some e ∧ ((s.enterTesting k).capture k).matchCount = 0 ∧
       ((s.enterTesting k).capture k).afterSeen = false) ∧
     (∀ pr, st.prompt = some pr → (s.enterTesting k).prompt k =
       { isOpen := true, expected := some pr.expected, width := some pr.width }) ∧
     ∃ r, ((s.enterTesting k).seat k).running = some r ∧ r.step = st ∧ r.start = s.now ∧
       r.deadline = msAfter s.now st.window ∧ (∀ v ∈ r.measReports, v = none) ∧ r.expectReport = none ∧
       r.promptReport = none ∧
       (∀ (i : Fin 3) (x : ChannelEntry) (p : Program), st.entries.length ≤ 3 → st.entries[i.val]? = some x →
         (s.program x.program).program = some p → ∃ c, r.channels[i.val]? = some c ∧
           (s.enterTesting k).channel c =
             { state := .armed, seat := some k, entry := some i, target := some x.target, trigger := some x.trigger,
               program := some x.program, address := p.start, remaining := p.count, shadow := none, kept := false,
               nextTimer := none, outstanding := 0, made := 0 }) ∧
       (∀ (i : Fin 2) (x : Measurement), st.measurements.length ≤ 2 → st.measurements[i.val]? = some x →
         ∃ m y, r.slots[i.val]? = some m ∧ (s.enterTesting k).slot m = y ∧ y.seat = some k ∧
           y.measurement = some i ∧ y.input = some x.input ∧ y.limit = some x.limit ∧ y.gate = some x.gate ∧
           y.y = none ∧ y.run = 0 ∧ y.samples = 0 ∧ y.extreme = none ∧
           (x.gate = .start ∨ x.gate = .delay 0 → y.state = .sampling) ∧
           (∀ d, x.gate = .delay d → 1 ≤ d → y.state = .gated ∧
             y.gateTime = if d < st.window then some (msAfter s.now d) else none) ∧
           (∀ e, x.gate = .mark e → y.state = .gated ∧ y.gateTime = none))) ∧
  (∀ (s : State) (k : Fin 4) (st : Step) (rest : List Step) (x : ChannelEntry) (n : Nat) (p : Program) (q : Port),
     (s.seat k).queue = st :: rest → (s.seat k).running = none → s.waitList = [] → s.covered k = true →
     s.referencesOk st = true → s.promptGranted k st = true → st.entries = [x] → x.trigger = .timer n →
     (s.program x.program).program = some p → 1 ≤ p.block → 2 ≤ p.count → (s.record k).owner = some q →
     (s.grant (regionOf p.start)).grants q = true →
     ∃ r c, ((s.enterTesting k).seat k).running = some r ∧ r.step = st ∧ r.channels = [c] ∧
       ((s.enterTesting k).channel c).state = .running ∧ ((s.enterTesting k).channel c).seat = some k ∧
       ((s.enterTesting k).channel c).nextTimer = some (msAfter s.now n) ∧
       ((s.enterTesting k).channel c).outstanding = min p.block p.count - 1 ∧
       ((s.enterTesting k).channel c).remaining = p.count - 1 ∧
       ((s.enterTesting k).channel c).address = advance p p.start ∧
       ((s.enterTesting k).seat k).outputs =
         (s.seat k).outputs.restAll.take x.target (Memory.read s.pattern p.start.toNat)) ∧
  (∀ (s : State) (k : Fin 4) (st : Step) (rest : List Step) (x : ChannelEntry) (n : Nat) (p : Program),
     (s.seat k).queue = st :: rest → (s.seat k).running = none → s.waitList = [] → s.covered k = true →
     s.referencesOk st = true → s.promptGranted k st = true → st.entries = [x] → x.trigger = .timer n →
     (s.program x.program).program = some p → 1 ≤ p.block → 1 ≤ p.count →
     (∀ q, (s.record k).owner = some q → (s.grant (regionOf p.start)).grants q = false) →
     (st.policy = .holdSeat ∨ rest = []) →
     ((s.enterTesting k).record k).state = (if st.policy = .holdSeat then .hold else .powered) ∧
     ((s.enterTesting k).seat k).queue = [] ∧ ((s.enterTesting k).seat k).running = none ∧
     (∀ c, ((s.enterTesting k).channel c).onSeat k = false) ∧
     ((s.enterTesting k).seat k).outputs = (s.seat k).outputs.restAll ∧
     ∃ e, ((s.enterTesting k).seat k).results = (s.seat k).results.append e ∧ e.stepId = st.id ∧
       e.outcome = .aborted ∧ e.deciding = .noPart ∧ e.cause = some .regionDenied ∧ e.start = s.now ∧ e.elapsed = 0) ∧
  (∀ (s : State) (k : Fin 4) (st next : Step) (rest : List Step) (c : Cause), (s.seat k).queue = st :: next :: rest →
     (s.seat k).running = none → s.waitList = [] → s.covered k = true → st.policy = .continue →
     (s.referencesOk st = false ∧ c = .badReference) ∨
       (s.referencesOk st = true ∧ s.promptGranted k st = false ∧ c = .regionDenied) →
     next.entries.length ≤ s.freeChannelCount → next.measurements.length ≤ s.freeSlotCount →
     s.referencesOk next = true → s.promptGranted k next = true → (∀ e ∈ next.entries, ∀ n, e.trigger ≠ .timer n) →
     ((s.enterTesting k).record k).state = .testing ∧ ((s.enterTesting k).seat k).queue = rest ∧
     (∃ r, ((s.enterTesting k).seat k).running = some r ∧ r.step = next ∧ r.start = s.now) ∧
     ∃ e, ((s.enterTesting k).seat k).results = (s.seat k).results.append e ∧ e.stepId = st.id ∧
       e.outcome = .aborted ∧ e.deciding = .noPart ∧ e.cause = some c ∧ e.start = s.now ∧ e.elapsed = 0)

/-- Leaving TESTING frees every channel and slot of the seat, rests its outputs, drops its frame schedules without
touching a transmission in flight, takes it off the wait list, and touches no other seat (R9, R99). -/
def Obligations.LeavingTestingReleasesEverything : Prop :=
  ∀ (s : State) (k : Fin 4),
    (∀ c, ((s.leaveTesting k).channel c).onSeat k = false) ∧
    (∀ m, ((s.leaveTesting k).slot m).seat ≠ some k) ∧
    ((s.leaveTesting k).seat k).outputs = (s.seat k).outputs.restAll ∧
    (∀ f, (s.leaveTesting k).frame k f = { s.frame k f with pending := false, nextDue := none }) ∧
    ((s.leaveTesting k).seat k).link = (s.seat k).link ∧
    (s.leaveTesting k).waitList = s.waitList.filter (· != k) ∧
    (∀ j, j ≠ k → (s.leaveTesting k).seat j = s.seat j) ∧ (s.leaveTesting k).record k = s.record k ∧
    ((s.leaveTesting k).seat k).queue = (s.seat k).queue

/-- STOP_SEAT from the owner in TESTING: the seat enters HOLD with its queue kept; a running step is recorded ABORTED
with cause STOP_SEAT and its snapshot taken with every channel still bound; a waiting seat leaves the wait list
without a result. In another state it is refused WRONG_STATE (R18, R44, R46). -/
def Obligations.StopSeatHoldsAndRecords : Prop :=
  ∀ (p : Port) (k : Fin 4) (s : State), s.takes p → (s.record k).owner = some p →
    ((s.record k).state ≠ .testing → exec (.stopSeat p [byteOf k.val]) s = answered s p .wrongState []) ∧
    ((s.record k).state = .testing → ∃ t, exec (.stopSeat p [byteOf k.val]) s = answered t p .ok [] ∧
      (t.record k).state = .hold ∧ (t.record k).supply = .on ∧ (t.record k).actuator = .closed ∧
      (t.record k).owner = some p ∧ (t.seat k).queue = (s.seat k).queue ∧ (t.seat k).running = none ∧
      k ∉ t.waitList ∧ t.pattern = s.pattern ∧
      ((s.seat k).running = none → (t.seat k).results = (s.seat k).results ∧
        (t.record k).snapshot = (s.record k).snapshot) ∧
      (∀ r, (s.seat k).running = some r →
        (t.record k).snapshot = some (s.snapshotOf k r .stopSeat) ∧
        ∃ e, (t.seat k).results = (s.seat k).results.append e ∧ e.stepId = r.step.id ∧ e.outcome = .aborted ∧
          e.deciding = .noPart ∧ e.cause = some .stopSeat ∧ e.start = r.start ∧ e.elapsed = s.now - r.start))

/-- CLEAR_FAULT in FAULT, from the owner or from either port of an unowned seat, chooses the next state from the
present level, the confirm level and the actuator, keeps the supply off and every other field of the record, and posts
the new state; the other port is refused NOT_OWNER, another state WRONG_STATE (R20). -/
def Obligations.ClearFaultChoosesState : Prop :=
  ∀ (p : Port) (k : Fin 4) (s : State), s.takes p →
    ((s.record k).owner = some (otherPort p) →
      exec (.clearFault p [byteOf k.val]) s = answered s p .notOwner []) ∧
    ((s.record k).owner ≠ some (otherPort p) → (s.record k).state ≠ .fault →
      exec (.clearFault p [byteOf k.val]) s = answered s p .wrongState []) ∧
    ((s.record k).owner ≠ some (otherPort p) → (s.record k).state = .fault →
      ∃ st d, exec (.clearFault p [byteOf k.val]) s = answered (s.enterState k st d none) p .ok [] ∧
        ((s.record k).present.level = false → st = .vacant ∧ d = none) ∧
        ((s.record k).present.level = true → (s.record k).confirm.level = true → (s.record k).actuator = .closed →
          st = .clamped ∧ d = none) ∧
        ((s.record k).present.level = true → (s.record k).confirm.level = true → (s.record k).actuator = .open →
          st = .unclamping ∧ d = some (msAfter s.now s.loader.unclampTimeout)) ∧
        ((s.record k).present.level = true → (s.record k).confirm.level = false → st = .loaded ∧ d = none) ∧
        (s.enterState k st d none).record k =
          { s.record k with state := st, cause := none, actuator := if st = .clamped then .closed else .open,
                            supply := .off, deadline := d } ∧
        ((s.enterState k st d none).seat k).results = (s.seat k).results ∧
        (∀ q, (s.record k).owner = some q ∨ (s.record k).owner = none → (s.enterState k st d none).port q =
          (s.port q).post { kind := .seatState, level := 0, seat := some k, stepId := none, code := byteOf st.code,
                            count := none, time := s.now }))

/-- Entering FAULT from outside FAULT: the supply goes off, the actuator opens unless the cause is SUPPLY_TRIP, the
cause is recorded, the queue is flushed, the outputs rest, the owner stays; in TESTING the running step is recorded
ABORTED with the cause and its snapshot taken, and the seat leaves the wait list; outside TESTING one FAULT notice is
posted with the number flushed. In FAULT nothing changes (R8). -/
def Obligations.EnteringFault : Prop :=
  ∀ (s : State) (k : Fin 4) (c : Cause), c.isFault = true →
    ((s.record k).state = .fault → s.faultSeat k c = s) ∧
    ((s.record k).state ≠ .fault →
      ((s.faultSeat k c).record k).state = .fault ∧ ((s.faultSeat k c).record k).cause = some c ∧
      ((s.faultSeat k c).record k).supply = .off ∧
      ((s.faultSeat k c).record k).actuator = (if c = .supplyTrip then .closed else .open) ∧
      ((s.faultSeat k c).record k).deadline = none ∧ ((s.faultSeat k c).record k).owner = (s.record k).owner ∧
      ((s.faultSeat k c).seat k).queue = [] ∧
      ((s.faultSeat k c).seat k).outputs = (s.seat k).outputs.restAll ∧
      ((s.record k).state = .testing → ((s.faultSeat k c).seat k).running = none ∧ k ∉ (s.faultSeat k c).waitList ∧
        ∀ r, (s.seat k).running = some r →
          ((s.faultSeat k c).record k).snapshot = some (s.snapshotOf k r c) ∧
          ∃ e, ((s.faultSeat k c).seat k).results = (s.seat k).results.append e ∧ e.stepId = r.step.id ∧
            e.outcome = .aborted ∧ e.cause = some c) ∧
      ((s.record k).state ≠ .testing →
        (∀ j, j ≠ k → (s.faultSeat k c).seat j = s.seat j) ∧ (s.faultSeat k c).channels = s.channels ∧
        (∀ q, (s.faultSeat k c).port q =
          if (s.record k).owner = some (otherPort q) then s.port q
          else (s.port q).post { kind := .fault, level := 0, seat := some k, stepId := none, code := byteOf c.code,
                                 count := some (s.seat k).queue.length, time := s.now })))

/-! ### Sensors, keys and clamp timers -/

/-- A raw change of a sensor or key pin is noted with the moment it came, a repeated level restarts nothing, and
nothing else changes (R3, R158). A key press of a seat whose prompt is closed posts a KEY notice along the seat's
route and changes only the key's level beside it; a press during the load and every release change only the level
(R158). -/
def Obligations.RawChangesAndKeyLevels : Prop :=
  (∀ (s : State) (active : Bool),
     (∀ k x, exec (.sensorRawChange k x active) s = .next (s.setRecord k ((s.record k).setSensor x
       (if ((s.record k).sensor x).raw = active then (s.record k).sensor x
        else { (s.record k).sensor x with raw := active, since := s.clock })))) ∧
     (∀ y, exec (.keyRawChange y active) s = .next (s.setKey y
       (if (s.key y).raw = active then s.key y else { s.key y with raw := active, since := s.clock })))) ∧
  (∀ (s : State) (k : Fin 4) (a : YesNo),
     (s.pressReady (.answer k a) = true → s.isReady = false →
       exec (.keyPress k a) s = .next (s.setKey (.answer k a) { s.key (.answer k a) with level := true })) ∧
     (s.pressReady (.answer k a) = true → s.isReady = true → (s.prompt k).isOpen = false →
       exec (.keyPress k a) s = .next ((s.setKey (.answer k a) { s.key (.answer k a) with level := true }).postSeat k
         { kind := .key, level := 0, seat := some k, stepId := none,
           code := match a with
                   | .yes => 0
                   | .no => 1,
           count := none, time := s.now })) ∧
     (∀ y, s.releaseReady y = true → exec (.keyRelease y) s = .next (s.setKey y { s.key y with level := false })))

/-- A debounced change of the present level acts as R4 gives for each state, and during the load it only records the
level (R22). MODEL: entering VACANT flushes the queue and its SEAT_STATE notice carries the number flushed, 0 included
(R4, R10), log entry 14. -/
def Obligations.PresentLevelActs : Prop :=
  ∀ (s : State) (k : Fin 4), (s.record k).present.ready s.clock = true →
    ∀ u, u = s.setRecord k { s.record k with present := { (s.record k).present with level := (s.record k).present.raw } } →
    (s.isReady = false → exec (.presentLevelChange k) s = .next u) ∧
    (s.isReady = true → exec (.presentLevelChange k) s =
      match (s.record k).present.raw, (s.record k).state with
      | true, .vacant => .next (u.enterState k .loaded none none)
      | false, .loaded => .next ((u.setQueue k []).enterState k .vacant none (some (s.seat k).queue.length))
      | false, .clamping | false, .clamped | false, .powered | false, .testing | false, .hold =>
        .next (u.faultSeat k .unitLost)
      | _, _ => .next u)

/-- A debounced change of the confirm level acts as R5 gives for each state, during the load it only records the level
(R22), and a CLAMP that finds the confirm closed passes into CLAMPED (R14). MODEL: entering VACANT flushes the queue
and its SEAT_STATE notice carries the number flushed, 0 included (R5, R10), log entry 14. -/
def Obligations.ConfirmLevelActs : Prop :=
  ∀ (s : State) (k : Fin 4),
    ((s.record k).confirm.ready s.clock = true →
      ∀ u, u = s.setRecord k
        { s.record k with confirm := { (s.record k).confirm with level := (s.record k).confirm.raw } } →
      (s.isReady = false → exec (.confirmLevelChange k) s = .next u) ∧
      (s.isReady = true → exec (.confirmLevelChange k) s =
        match (s.record k).confirm.raw, (s.record k).state with
        | true, .clamping => .next (u.enterState k .clamped none none)
        | false, .clamped | false, .powered | false, .testing | false, .hold => .next (u.faultSeat k .clampLost)
        | false, .unclamping =>
          if (s.record k).present.level then .next (u.enterState k .loaded none none)
          else .next ((u.setQueue k []).enterState k .vacant none (some (s.seat k).queue.length))
        | _, _ => .next u)) ∧
    (∀ p, s.takes p → (s.record k).owner = some p → (s.record k).state = .loaded → (s.record k).confirm.level = true →
      (s.seat k).results.entries = [] → (s.seat k).results.summary = .none →
      exec (.clamp p [byteOf k.val]) s = answered (s.enterState k .clamped none none) p .ok [])

/-- A debounced trip in POWERED, TESTING or HOLD moves the seat to FAULT with the actuator closed; every other change
of the trip level is recorded alone, and while it is TRIPPED POWER_ON is refused (R6). The clamp timer that expires in
CLAMPING puts the seat in FAULT with CLAMP_TIMEOUT and the actuator open; in UNCLAMPING with UNCLAMP_TIMEOUT (R7). -/
def Obligations.TripLevelAndClampTimers : Prop :=
  (∀ (s : State) (k : Fin 4),
     ((s.record k).trip.ready s.clock = true →
       ∀ u, u = s.setRecord k { s.record k with trip := { (s.record k).trip with level := (s.record k).trip.raw } } →
       (s.isReady = false → exec (.tripLevelChange k) s = .next u) ∧
       (s.isReady = true → exec (.tripLevelChange k) s =
         match (s.record k).trip.raw, (s.record k).state with
         | true, .powered | true, .testing | true, .hold => .next (u.faultSeat k .supplyTrip)
         | _, _ => .next u) ∧
       ((s.record k).state ≠ .fault → ((u.faultSeat k .supplyTrip).record k).actuator = .closed ∧
         ((u.faultSeat k .supplyTrip).record k).supply = .off)) ∧
     (∀ p, s.takes p → (s.record k).owner = some p → (s.record k).trip.level = true →
       exec (.powerOn p [byteOf k.val]) s = answered s p .wrongState [])) ∧
  (∀ (s : State) (k : Fin 4) (t : RackTime), (s.record k).deadline = some t → msReached s.now t = true →
     ((s.record k).state = .clamping → exec (.clampTimerExpiry k) s = .next (s.faultSeat k .clampTimeout) ∧
       ((s.faultSeat k .clampTimeout).record k).cause = some .clampTimeout ∧
       ((s.faultSeat k .clampTimeout).record k).actuator = .open) ∧
     ((s.record k).state = .unclamping → exec (.unclampTimerExpiry k) s = .next (s.faultSeat k .unclampTimeout) ∧
       ((s.faultSeat k .unclampTimeout).record k).cause = some .unclampTimeout))

/-! ### Steps -/

/-- A step record within its ranges is read back from its bytes on the link as it is, when R26 has nothing against it,
and gives BAD_PARAM when it has (R25, R26, R181): the bitmap must end inside pattern memory, no two entries may name
one target, a CHAIN trigger must name another entry of the step and a MARK gate an entry of it, and one entry at most
may be marked keep. A length rule of 9 to FEh gives BAD_PARAM, of the pattern and of the after pattern, whether the
after flag is set or clear (R181). A program record and a limit record within their ranges are read back from their
bytes on the link as they are (R62, R117, R182). -/
def Obligations.RecordsRoundTrip : Prop :=
  (∀ (k : Fin 4) (st : Step), st.Fits →
     queueStepArg (byteOf k.val :: st.bytes) = if stepOk st then some (k, st) else none) ∧
  (∀ st : Step, stepOk st = true ↔
     (∀ pr, st.prompt = some pr → pr.addr.toNat + pr.width - 1 ≤ 16383) ∧
     (∀ (i j : Nat) (x y : ChannelEntry), i < j → st.entries[i]? = some x → st.entries[j]? = some y →
       x.target ≠ y.target) ∧
     (∀ (i : Nat) (x : ChannelEntry) (e : Fin 3), st.entries[i]? = some x → x.trigger = .chain e →
       e.val ≠ i ∧ e.val < st.entries.length) ∧
     (∀ m ∈ st.measurements, ∀ e, m.gate = .mark e → e.val < st.entries.length) ∧
     (∀ (i j : Nat) (x y : ChannelEntry), i < j → st.entries[i]? = some x → st.entries[j]? = some y →
       x.keep = true → y.keep = false)) ∧
  (∀ bytes : List Byte,
     (∃ b : Byte, (bytes[5]? = some b ∨ bytes[40]? = some b) ∧ 9 ≤ b.toNat ∧ b.toNat ≤ 0xFE) →
     expectationArg bytes = none ∧
     ∀ (k : Fin 4) (i0 i1 w0 w1 policy prompt : Byte),
       queueStepArg ([byteOf k.val, i0, i1, w0, w1, policy, 0, 0, 1, prompt] ++ bytes) = none) ∧
  ((∀ (i : Fin 48) (x : Program), x.Fits → writeProgramArg (byteOf i.val :: eProgram x) = some (i, x)) ∧
   (∀ (i : Fin 256) (x : Limit), x.Fits → writeLimitArg (byteOf i.val :: eLimit x) = some (i, x)))

/-- QUEUE_STEP appends the step it carries and answers the new length; a full queue refuses it FULL, VACANT and FAULT
WRONG_STATE, a record in error BAD_PARAM (R26, R27). FLUSH_QUEUE from the owner answers the number flushed; it empties
the queue and touches nothing else, but a waiting seat leaves the wait list for POWERED (R42). -/
def Obligations.StepQueueCommands : Prop :=
  (∀ (p : Port) (ps : List Byte) (s : State), s.takes p →
     (queueStepArg ps = none → exec (.queueStep p ps) s = answered s p .badParam []) ∧
     (∀ k st, queueStepArg ps = some (k, st) → (s.record k).owner = some p →
       ((s.record k).state = .vacant ∨ (s.record k).state = .fault →
         exec (.queueStep p ps) s = answered s p .wrongState []) ∧
       ((s.record k).state ≠ .vacant → (s.record k).state ≠ .fault → 24 ≤ (s.seat k).queue.length →
         exec (.queueStep p ps) s = answered s p .full []) ∧
       ((s.record k).state ≠ .vacant → (s.record k).state ≠ .fault → (s.seat k).queue.length < 24 →
         exec (.queueStep p ps) s = answered (s.setQueue k ((s.seat k).queue ++ [st])) p .ok
           [byteOf ((s.seat k).queue.length + 1)]))) ∧
  (∀ (p : Port) (k : Fin 4) (s : State), s.takes p → (s.record k).owner = some p →
     ((s.record k).state ≠ .testing ∨ k ∉ s.waitList → exec (.flushQueue p [byteOf k.val]) s =
       answered (s.setQueue k []) p .ok [byteOf (s.seat k).queue.length]) ∧
     ((s.record k).state = .testing → k ∈ s.waitList → ∃ t, exec (.flushQueue p [byteOf k.val]) s =
         answered t p .ok [byteOf (s.seat k).queue.length] ∧
       (t.record k).state = .powered ∧ (t.record k).supply = .on ∧ (t.seat k).queue = [] ∧ k ∉ t.waitList ∧
       (t.seat k).running = (s.seat k).running ∧ (t.seat k).results = (s.seat k).results))

/-- ABORT_STEP with the id of the running step records it ABORTED with cause STATION_ABORT; with HOLD_SEAT the seat
enters HOLD with its queue flushed, with CONTINUE and nothing queued it returns to POWERED. Without a running step of
that id it is refused WRONG_STATE (R41, R43, R44). A move of a channel of the running step that finds its region not
granted aborts the step in the same way with cause REGION_DENIED, makes no move, and frees every channel of the seat
that leaves TESTING (R9, R45, R58, R83). -/
def Obligations.AbortStepFollowsPolicy : Prop :=
  (∀ (p : Port) (k : Fin 4) (id : Word) (s : State), s.takes p → (s.record k).owner = some p →
    ((∀ r, (s.record k).state = .testing → (s.seat k).running = some r → r.step.id ≠ id) →
      exec (.abortStep p ([byteOf k.val] ++ bytes16 id.toNat)) s = answered s p .wrongState []) ∧
    (∀ r, (s.record k).state = .testing → (s.seat k).running = some r → r.step.id = id →
      r.step.policy = .holdSeat ∨ (s.seat k).queue = [] →
      ∃ t, exec (.abortStep p ([byteOf k.val] ++ bytes16 id.toNat)) s = answered t p .ok [] ∧
        (t.record k).state = (if r.step.policy = .holdSeat then .hold else .powered) ∧ (t.seat k).queue = [] ∧
        (t.seat k).running = none ∧ (t.record k).snapshot = some (s.snapshotOf k r .stationAbort) ∧
        ∃ e, (t.seat k).results = (s.seat k).results.append e ∧ e.stepId = id ∧ e.outcome = .aborted ∧
          e.cause = some .stationAbort)) ∧
  (∀ (s : State) (c : Fin 8) (k : Fin 4) (tg : Target) (p : Program) (r : Running),
    (s.channel c).outstanding ≠ 0 → (s.channel c).state = .armed ∨ (s.channel c).state = .running →
    (s.channel c).seat = some k → (s.channel c).target = some tg → s.channelProgram c = some p →
    s.moveGranted c k = false → (s.channel c).kept = false → (s.record k).state = .testing →
    (s.seat k).running = some r → r.step.policy = .holdSeat ∨ (s.seat k).queue = [] →
    ∃ t, exec (.channelMove c) s = .next t ∧
      (t.record k).state = (if r.step.policy = .holdSeat then .hold else .powered) ∧ (t.seat k).queue = [] ∧
      (t.seat k).running = none ∧ (t.record k).snapshot = some (s.snapshotOf k r .regionDenied) ∧
      (∀ d, (t.channel d).onSeat k = false) ∧ (t.seat k).outputs = (s.seat k).outputs.restAll ∧
      t.pattern = s.pattern ∧
      ∃ e, (t.seat k).results = (s.seat k).results.append e ∧ e.stepId = r.step.id ∧ e.outcome = .aborted ∧
        e.deciding = .noPart ∧ e.cause = some .regionDenied ∧ e.start = r.start ∧ e.elapsed = s.now - r.start)

/-- The expiry of a window ends its step: the entry appended carries the worst verdict of the parts, those still open
judged at that moment, and no cause (R37). An open measurement is judged by its last zone in SETTLE and by the zone of
its extreme in the peak modes, FAIL_TIMEOUT without a sample (R128); an open expectation by its match count (R144); an
open prompt FAIL_TIMEOUT (R157). A step with no parts and nothing queued behind it passes at its window expiry: PASS
with no deciding part, and the seat returns to POWERED (R37, R38, R40, R41). The channels it frees let the oldest
waiting seat start its head step when that step's need is covered (R31); with the oldest need not covered the arbiter
starts nothing. A step with no parts and another queued behind it keeps the channel of its keep entry, without its
entry number (R39, R81), and the next step starts at once when nothing waits and its need is covered (R41). -/
def Obligations.WindowExpiryJudgesOpenParts : Prop :=
  ((∀ (s : State) (k : Fin 4) (r : Running), (s.seat k).running = some r → msReached s.now r.deadline = true →
     ∃ t e, exec (.windowExpiry k) s = .next t ∧ e.stepId = r.step.id ∧
       (e.deciding, e.outcome) = judgeStep (s.judgeOpen k r).judged ∧ e.cause = none ∧ e.start = r.start ∧
       e.elapsed = s.now - r.start ∧ ((s.seat k).results.append e).entries <+: (t.seat k).results.entries) ∧
   (∀ (s : State) (m : Fin 6) (l : Limit) (x : MeasReport), s.expiredMeas m (some x) = some x ∧
     (s.slotLimit m = some l → s.expiredMeas m none = some ((s.slot m).expiryReport l))) ∧
   (∀ (m : MeasSlot) (l : Limit), (m.expiryReport l).samples = m.samples ∧
     (l.mode = .settle → (m.expiryReport l).value = m.y ∧ (m.y = none → (m.expiryReport l).verdict = .failTimeout) ∧
       (m.y ≠ none → (m.expiryReport l).verdict =
         if m.zone = .outLow then .failLow else if m.zone = .outHigh then .failHigh else .failTimeout)) ∧
     (l.mode ≠ .settle → (m.expiryReport l).value = m.extreme ∧
       (m.extreme = none → (m.expiryReport l).verdict = .failTimeout) ∧
       ∀ y, m.extreme = some y → (zoneOf l y = .inside → (m.expiryReport l).verdict = .pass) ∧
         (zoneOf l y = .marginal → (m.expiryReport l).verdict = .marginal) ∧
         (zoneOf l y = .outLow → (m.expiryReport l).verdict = .failLow) ∧
         (zoneOf l y = .outHigh → (m.expiryReport l).verdict = .failHigh))) ∧
   (∀ (s : State) (k : Fin 4) (r : Running),
     (∀ e, r.step.expectation = some e → r.expectReport = none → (s.judgeOpen k r).expectReport =
       some { verdict := if e.mode = .absent ∧ (s.capture k).matchCount = 0 then .pass else .failPattern,
              count := (s.capture k).matchCount }) ∧
     (∀ p, r.step.prompt = some p → r.promptReport = none →
       (s.judgeOpen k r).promptReport = some { verdict := .failTimeout, answer := none }))) ∧
  (∀ (s : State) (k : Fin 4) (r : Running), (s.record k).state = .testing → (s.seat k).running = some r →
     msReached s.now r.deadline = true → r.step.measurements = [] → r.slots = [] → r.step.expectation = none →
     r.step.prompt = none → r.expectReport = none → r.promptReport = none →
     ((s.seat k).queue = [] →
       ∃ t, exec (.windowExpiry k) s = .next t ∧ (t.record k).state = .powered ∧ (t.seat k).running = none ∧
         (t.record k).snapshot = (s.record k).snapshot ∧
         (∃ e, (t.seat k).results = (s.seat k).results.append e ∧ e.stepId = r.step.id ∧ e.outcome = .pass ∧
           e.deciding = .noPart ∧ e.cause = none ∧ e.start = r.start ∧ e.elapsed = s.now - r.start) ∧
         (∀ (j : Fin 4) (ws : List (Fin 4)) (st : Step) (rest : List Step), s.waitList = j :: ws →
           (j :: ws).Nodup → k ∉ s.waitList → (s.record j).state = .testing → (s.seat j).running = none →
           (s.seat j).queue = st :: rest → st.entries.length ≤ (s.leaveTesting k).freeChannelCount →
           st.measurements.length ≤ (s.leaveTesting k).freeSlotCount → s.referencesOk st = true →
           s.promptGranted j st = true → (∀ e ∈ st.entries, ∀ n, e.trigger ≠ .timer n) →
           j ∉ t.waitList ∧ (t.seat j).queue = rest ∧ ∃ r', (t.seat j).running = some r' ∧ r'.step = st ∧
             r'.start = s.now)) ∧
     (∀ (st : Step) (rest : List Step), (s.seat k).queue = st :: rest → s.waitList = [] →
       st.entries.length ≤ s.freeChannelCount → st.measurements.length ≤ s.freeSlotCount →
       s.referencesOk st = true → s.promptGranted k st = true → (∀ e ∈ st.entries, ∀ n, e.trigger ≠ .timer n) →
       ∃ t, exec (.windowExpiry k) s = .next t ∧ (t.record k).state = .testing ∧ (t.seat k).queue = rest ∧
         (∃ r', (t.seat k).running = some r' ∧ r'.step = st ∧ r'.start = s.now) ∧
         (∀ (x : ChannelEntry) (c : Fin 8), r.step.entries = [x] → x.keep = true → r.channels = [c] →
           (s.channel c).seat = some k → (s.channel c).state ≠ .free → (s.channel c).kept = false →
           (∀ e ∈ st.entries, some e.target ≠ (s.channel c).target) →
           t.channel c = { s.channel c with entry := none, kept := true } ∧
           (∀ d, s.keptChannel k = some d → (t.channel d).kept = false)))) ∧
  (∀ s : State, (s.waitList = [] → s.arbitrate = s) ∧
    (∀ (j : Fin 4) (ws : List (Fin 4)), s.waitList = j :: ws → s.covered j = false → s.arbitrate = s))

/-- The outcome of a step is its worst part verdict and the earliest part with it decides; without parts it is PASS
and NONE; an aborted step is ABORTED, NONE and its cause, whatever its parts gave (R38). -/
def Obligations.WorstPartDecides : Prop :=
  (∀ parts : List (DecidingPart × StepOutcome), parts ≠ [] →
    ∃ i : Fin parts.length, judgeStep parts = parts[i] ∧ (∀ x ∈ parts, x.2.rank ≤ (judgeStep parts).2.rank) ∧
      ∀ j : Fin parts.length, j < i → parts[j].2.rank < (judgeStep parts).2.rank) ∧
  judgeStep [] = (.noPart, .pass) ∧
  (∀ (s : State) (r : Running), (s.endEntry r).outcome = (judgeStep r.judged).2 ∧
    (s.endEntry r).deciding = (judgeStep r.judged).1 ∧ (s.endEntry r).cause = none) ∧
  (∀ (s : State) (r : Running) (x : Snapshot), (s.abortEntry r x).outcome = .aborted ∧
    (s.abortEntry r x).deciding = .noPart ∧ (s.abortEntry r x).cause = some x.cause) ∧
  judgeStep [(.measurement0, .marginal), (.measurement1, .failTimeout), (.prompt, .failTimeout)] =
    (.measurement1, .failTimeout) ∧
  judgeStep [(.measurement0, .marginal), (.measurement1, .failTimeout), (.prompt, .operatorNo)] = (.prompt, .operatorNo)

/-! ### Pattern memory and grants -/

/-- TAKE_REGION, SHARE_REGION and DROP_REGION move a region's entry, and answer, as the tables of R52 to R54 give;
nothing else changes. -/
def Obligations.RegionGrantCommands : Prop :=
  ∀ (p : Port) (r : Fin 32) (s : State), s.takes p →
    (exec (.takeRegion p [byteOf r.val]) s =
      if s.grant r = .none then answered (s.setGrant r (Grant.of p)) p .ok []
      else if s.grant r = Grant.of (otherPort p) then answered s p .inUse [] else answered s p .ok []) ∧
    (exec (.shareRegion p [byteOf r.val]) s =
      if s.grant r = Grant.of p then answered (s.setGrant r .both) p .ok [] else answered s p .wrongState []) ∧
    (exec (.dropRegion p [byteOf r.val]) s =
      if s.grant r = Grant.of p then answered (s.setGrant r .none) p .ok []
      else if s.grant r = .both then answered (s.setGrant r (Grant.of (otherPort p))) p .ok []
      else answered s p .notOwner [])

/-- WRITE_PATTERN of a span inside the memory: with every region granted, each word of the span reads as carried,
every other word as before, and nothing but pattern memory changes; otherwise DENIED. A span or a byte count in error
gives BAD_PARAM (R55). READ_PATTERN returns the words of a span in order, low byte first, with no grant needed (R56).
MODEL: no count byte stands before them, log entry 32. -/
def Obligations.PatternWriteAndRead : Prop :=
  ∀ (p : Port) (s : State) (lo hi count : Byte) (bytes : List Byte), s.takes p → Memory.wf s.pattern →
    (16384 ≤ (word16 lo hi).toNat ∨ count.toNat = 0 ∨ 64 < count.toNat ∨
        16384 < (word16 lo hi).toNat + count.toNat →
      exec (.writePattern p ([lo, hi, count] ++ bytes)) s = answered s p .badParam [] ∧
      exec (.readPattern p [lo, hi, count]) s = answered s p .badParam []) ∧
    (bytes.length ≠ 2 * count.toNat → exec (.writePattern p ([lo, hi, count] ++ bytes)) s = answered s p .badParam []) ∧
    (1 ≤ count.toNat → count.toNat ≤ 64 → (word16 lo hi).toNat + count.toNat ≤ 16384 →
      exec (.readPattern p [lo, hi, count]) s = answered s p .ok ((List.range count.toNat).flatMap
        (fun i => bytes16 (Memory.read s.pattern ((word16 lo hi).toNat + i)).toNat)) ∧
      (bytes.length = 2 * count.toNat →
        ((∃ i, i < count.toNat ∧
            (s.grant ⟨((word16 lo hi).toNat + i) / 512 % 32, by omega⟩).grants p = false) →
          exec (.writePattern p ([lo, hi, count] ++ bytes)) s = answered s p .denied []) ∧
        ((∀ i, i < count.toNat → (s.grant ⟨((word16 lo hi).toNat + i) / 512 % 32, by omega⟩).grants p = true) →
          ∃ m, exec (.writePattern p ([lo, hi, count] ++ bytes)) s = answered { s with pattern := m } p .ok [] ∧
            (∀ i, i < count.toNat → Memory.read m ((word16 lo hi).toNat + i) =
              word16 (bytes.getD (2 * i) 0) (bytes.getD (2 * i + 1) 0)) ∧
            (∀ a, a < (word16 lo hi).toNat ∨ (word16 lo hi).toNat + count.toNat ≤ a →
              Memory.read m a = Memory.read s.pattern a))))

/-! ### Programs, limits and channels -/

/-- WRITE_PROGRAM and ERASE_PROGRAM change an entry whose use count is 0 and are refused IN_USE otherwise; a record in
error gives BAD_PARAM (R63, R64). WRITE_LIMIT and ERASE_LIMIT change an entry whose use count is 0 and are refused
IN_USE otherwise; a record in error gives BAD_PARAM (R118, R119). SET_SHADOW from the owner gives or clears the shadow
of a channel bound to the seat and changes nothing else; a FREE channel or one of another seat gives WRONG_STATE, an
operand out of range BAD_PARAM (R80). MODEL: the value bytes beside an absent address are not looked at, log
entry 17. -/
def Obligations.TableAndShadowCommands : Prop :=
  (∀ (p : Port) (s : State), s.takes p →
     (∀ ps, writeProgramArg ps = none → exec (.writeProgram p ps) s = answered s p .badParam []) ∧
     (∀ ps i x, writeProgramArg ps = some (i, x) → exec (.writeProgram p ps) s =
       if (s.program i).uses = 0 then answered (s.setProgram i { program := some x, uses := 0 }) p .ok []
       else answered s p .inUse []) ∧
     (∀ i : Fin 48, exec (.eraseProgram p [byteOf i.val]) s =
       if (s.program i).uses = 0 then answered (s.setProgram i { program := none, uses := 0 }) p .ok []
       else answered s p .inUse [])) ∧
  (∀ (p : Port) (s : State), s.takes p →
     (∀ ps, writeLimitArg ps = none → exec (.writeLimit p ps) s = answered s p .badParam []) ∧
     (∀ ps i x, writeLimitArg ps = some (i, x) → exec (.writeLimit p ps) s =
       if (s.limit i).uses = 0 then answered (s.setLimit i { limit := some x, uses := 0 }) p .ok []
       else answered s p .inUse []) ∧
     (∀ i : Fin 256, exec (.eraseLimit p [byteOf i.val]) s =
       if (s.limit i).uses = 0 then answered (s.setLimit i { limit := none, uses := 0 }) p .ok []
       else answered s p .inUse [])) ∧
  (∀ (p : Port) (k : Fin 4) (c : Fin 8) (lo hi : Byte) (s : State), s.takes p → (s.record k).owner = some p →
     ((s.channel c).state ≠ .free → (s.channel c).seat = some k →
       ((word16 lo hi).toNat < 16384 → exec (.setShadow p [byteOf k.val, byteOf c.val, 1, lo, hi]) s =
         answered (s.setChannel c { s.channel c with shadow := some ((word16 lo hi).setWidth 14) }) p .ok []) ∧
       exec (.setShadow p [byteOf k.val, byteOf c.val, 0, lo, hi]) s =
         answered (s.setChannel c { s.channel c with shadow := none }) p .ok []) ∧
     ((s.channel c).state = .free ∨ (s.channel c).seat ≠ some k →
       exec (.setShadow p [byteOf k.val, byteOf c.val, 0, lo, hi]) s = answered s p .wrongState [] ∧
       ((word16 lo hi).toNat < 16384 →
         exec (.setShadow p [byteOf k.val, byteOf c.val, 1, lo, hi]) s = answered s p .wrongState [])) ∧
     (16384 ≤ (word16 lo hi).toNat →
       exec (.setShadow p [byteOf k.val, byteOf c.val, 1, lo, hi]) s = answered s p .badParam []))

/-- The address advances by the step, up or down, within the aligned block of 2^w words that holds it; a step that is
a whole number of blocks leaves it (R75). -/
def Obligations.AddressWalksItsBlock : Prop :=
  ∀ (p : Program) (a : PatternAddr), p.wrap ≤ 14 →
    (advance p a).toNat / 2 ^ p.wrap = a.toNat / 2 ^ p.wrap ∧
    (p.direction = .up → (advance p a).toNat % 2 ^ p.wrap = (a.toNat % 2 ^ p.wrap + p.step) % 2 ^ p.wrap) ∧
    (p.direction = .down → ((advance p a).toNat % 2 ^ p.wrap + p.step) % 2 ^ p.wrap = a.toNat % 2 ^ p.wrap) ∧
    (2 ^ p.wrap ∣ p.step → advance p a = a)

/-- A granted move delivers the word at the channel's address to its target, counts, advances, and lowers outstanding;
pattern memory, grants, seat records, queues, running steps and results stay (R74, R76). At the mark, first each gate
of the seat's running step that waits for the entry the channel serves opens, and then, where the program asks for it,
one MARK notice goes along the seat's route with the channel number, and with the step id unless the channel is kept;
away from the mark no gate opens and no notice is posted (R77, R78, R111). A transaction end reloads the channel, ends
it in ONE_SHOT mode, and hands a trigger to each CHAIN channel of the same step that names its entry and can take one;
every other channel stays (R70, R73, R79). -/
def Obligations.GrantedMove : Prop :=
  ∀ (s : State) (c : Fin 8) (k : Fin 4) (tg : Target) (p : Program),
    (s.channel c).outstanding ≠ 0 → (s.channel c).state = .armed ∨ (s.channel c).state = .running →
    (s.channel c).seat = some k → (s.channel c).target = some tg → s.channelProgram c = some p →
    s.moveGranted c k = true →
    ∃ t, exec (.channelMove c) s = .next t ∧
      (t.channel c).outstanding = (s.channel c).outstanding - 1 ∧
      ((s.channel c).remaining - 1 ≠ 0 →
        (t.channel c).remaining = (s.channel c).remaining - 1 ∧ (t.channel c).state = .running ∧
        (t.channel c).address = advance p (s.channel c).address ∧ (t.channel c).shadow = (s.channel c).shadow) ∧
      ((s.channel c).remaining - 1 = 0 →
        (t.channel c).remaining = p.count ∧
        (t.channel c).state = (if p.mode = .oneShot then .done else .running) ∧
        (t.channel c).address = (s.channel c).shadow.getD (advance p (s.channel c).address) ∧
        (t.channel c).shadow = none) ∧
      (t.channel c).program = (s.channel c).program ∧ (t.channel c).kept = (s.channel c).kept ∧
      (t.seat k).outputs = (s.seat k).outputs.take tg (Memory.read s.pattern (s.channel c).address.toNat) ∧
      (∀ f, tg = .fs f → t.frame k f = (s.frame k f).deliver (s.channel c).made
        (Memory.read s.pattern (s.channel c).address.toNat)) ∧
      ((s.channel c).remaining - 1 = p.mark → ∀ e m, (s.channel c).entry = some e → (s.channel c).kept = false →
        (s.slot m).state = .gated → (s.slot m).seat = some k → (s.slot m).gate = some (.mark e) →
        (t.slot m).state = .sampling ∧ (t.slot m).gateTime = none) ∧
      (∀ m, (s.slot m).state ≠ .gated ∨ (s.slot m).seat ≠ some k ∨
          (∀ e, (s.channel c).entry = some e → (s.slot m).gate ≠ some (.mark e)) →
        (t.slot m).state = (s.slot m).state) ∧
      ((s.channel c).remaining - 1 ≠ p.mark ∨ (s.channel c).entry = none ∨ (s.channel c).kept = true →
        t.slots = s.slots ∧ t.converter = s.converter) ∧
      (∀ q, t.port q =
        if (s.channel c).remaining - 1 = p.mark ∧ p.markNotice = true ∧ (s.record k).owner ≠ some (otherPort q) then
          (s.port q).post
            { kind := .mark, level := 0, seat := some k,
              stepId := if (s.channel c).kept = true ∨ (s.channel c).entry = none then none
                        else (s.seat k).running.map (fun r => r.step.id),
              code := 0, count := some c.val, time := s.now }
        else s.port q) ∧
      ((s.channel c).remaining - 1 = 0 → ∀ e d x, d ≠ c → (s.channel c).entry = some e → (s.channel c).kept = false →
        (s.channel d).seat = some k → (s.channel d).entry ≠ none → (s.channel d).kept = false →
        (s.channel d).trigger = some (.chain e) → (s.channel d).state = .armed ∨ (s.channel d).state = .running →
        (s.channel d).outstanding = 0 → s.channelProgram d = some x →
        t.channel d = { s.channel d with state := .running, outstanding := min x.block (s.channel d).remaining,
                                         made := 0 }) ∧
      (∀ d, d ≠ c → (s.channel c).remaining - 1 ≠ 0 ∨ (s.channel c).kept = true ∨ (s.channel c).entry = none ∨
          (s.channel d).seat ≠ some k ∨ (s.channel d).entry = none ∨ (s.channel d).kept = true ∨ (s.channel d).state = .free ∨
          (s.channel d).state = .done ∨ (s.channel d).outstanding ≠ 0 ∨
          (∀ e, (s.channel c).entry = some e → (s.channel d).trigger ≠ some (.chain e)) →
        t.channel d = s.channel d) ∧
      t.pattern = s.pattern ∧ t.grants = s.grants ∧ t.waitList = s.waitList ∧
      (∀ j, t.record j = s.record j ∧ (t.seat j).queue = (s.seat j).queue ∧ (t.seat j).running = (s.seat j).running ∧
        (t.seat j).results = (s.seat j).results ∧ (j ≠ k → t.seat j = s.seat j))

/-- A refused move of the seat's kept channel: no step is aborted, the channel is freed, the use count of its program
falls and its output rests, and one FAULT notice of cause REGION_DENIED carries the channel number (R58, R69, R83).
With an empty wait list nothing else changes: not the other channels and programs, nor anything of the seats but that
output, nor the slots, the tables, the memories and the panel. -/
def Obligations.RefusedMoveOfKeptChannel : Prop :=
  ∀ (s : State) (c : Fin 8) (k : Fin 4) (tg : Target) (p : Program),
    (s.channel c).outstanding ≠ 0 → (s.channel c).state = .armed ∨ (s.channel c).state = .running →
    (s.channel c).seat = some k → (s.channel c).target = some tg → s.channelProgram c = some p →
    s.moveGranted c k = false → (s.channel c).kept = true → s.waitList = [] →
    ∃ t, exec (.channelMove c) s = .next t ∧ t.channel c = Channel.free ∧ (∀ d, d ≠ c → t.channel d = s.channel d) ∧
      (t.seat k).outputs = (s.seat k).outputs.rest tg ∧ t.pattern = s.pattern ∧
      (∀ j, t.record j = s.record j ∧ (t.seat j).running = (s.seat j).running ∧
        (t.seat j).results = (s.seat j).results ∧ (j ≠ k → t.seat j = s.seat j)) ∧
      { t.seat k with outputs := (s.seat k).outputs } = s.seat k ∧
      (∀ i, t.program i =
        if (s.channel c).program = some i then { s.program i with uses := (s.program i).uses - 1 } else s.program i) ∧
      { t with channels := s.channels, programs := s.programs, seats := s.seats, portA := s.portA,
               portB := s.portB } = s ∧
      (∀ q, t.port q = if (s.record k).owner = some (otherPort q) then s.port q
        else (s.port q).post { kind := .fault, level := 0, seat := some k, stepId := none, code := 7,
                               count := some c.val, time := s.now })

/-- A TIMER channel's trigger moves its next trigger on by the period; in DONE or with a block outstanding it does
nothing more, and an idle channel is asked for a block of the smaller of the block size and the remaining count (R70,
R71). The first move of that block belongs to the trigger (log entry 10). -/
def Obligations.TimerTriggerIsTaken : Prop :=
  ∀ (s : State) (c : Fin 8) (period : Nat) (t0 : RackTime), (s.channel c).state ≠ .free →
    (s.channel c).trigger = some (.timer period) → (s.channel c).nextTimer = some t0 → msReached s.now t0 = true →
    ((s.channel c).state = .done ∨ (s.channel c).outstanding ≠ 0 → exec (.timerTrigger c) s =
      .next (s.setChannel c { s.channel c with nextTimer := some (msAfter t0 period) })) ∧
    (∀ k tg p, (s.channel c).state = .armed ∨ (s.channel c).state = .running → (s.channel c).outstanding = 0 →
      (s.channel c).seat = some k → (s.channel c).target = some tg → s.channelProgram c = some p →
      s.moveGranted c k = true → exec (.timerTrigger c) s = .next ((s.setChannel c
        { s.channel c with nextTimer := some (msAfter t0 period), outstanding := min p.block (s.channel c).remaining,
                           made := 0, state := .running }).makeMove c k tg p))

/-! ### Outputs and frame links -/

/-- A word delivered to DL sets the lines its high byte masks to the levels of its low byte and holds the others
(R89), and the rest value of DL is all lines LOW (R86). A word delivered to an analog output clamps to 4095, and its
pin stands at 2.5 V / 4096 for each step of code, 0 V at code 0 and at rest (R86, R87). One delivered to a frequency
output clamps 1 to 19 to 20 and stops at 0; a cycle in progress completes with its own period, and a stopped output
starts a cycle at once (R88). MODEL: the cycle is a period and the microseconds gone in it, log entry 23. -/
def Obligations.WordsDeliveredToOutputs : Prop :=
  (∀ (o : LinesOut) (w : Word) (j : Nat), j < 8 →
    (o.take w).live.getLsbD j = (if w.getLsbD (8 + j) then w.getLsbD j else o.live.getLsbD j)) ∧
  (∀ o : LinesOut, (LinesOut.take { o with live := 0xF0 } 0x0F05).live = 0xF5) ∧
  (∀ o : Outputs, (o.rest .dl).dl.live = 0) ∧
  (∀ (o : AnalogOut) (w : Word), (o.take w).live.toNat = min w.toNat 4095 ∧
    (o.take w).volts = (min w.toNat 4095 : Nat) * (5 / 2 / 4096)) ∧
  (∀ (o : Outputs) (c : BitVec 12), (c = 0 → ({ o.ao0 with live := c }).volts = 0) ∧
    ({ o.ao0 with live := c }).volts = (c.toNat : Rat) * (5 / 2) / 4096 ∧ (o.rest .ao0).ao0.volts = 0 ∧
    (o.rest .ao1).ao1.volts = 0) ∧
  (∀ (o : FreqOut) (w : Word), (o.take w).live.toNat = (if w = 0 then 0 else max w.toNat 20)) ∧
  (∀ o : FreqOut, (o.take 0).cycle = none) ∧
  (∀ (o : FreqOut) (w : Word) (x : Cycle), w ≠ 0 → o.cycle = some x → (o.take w).cycle = some x) ∧
  (∀ (o : FreqOut) (w : Word), w ≠ 0 → o.cycle = none →
    (o.take w).cycle = some { period := max w.toNat 20, elapsed := 0 })

/-- SET_OUTPUT from the owner in POWERED, TESTING or HOLD, on an output no channel drives, delivers the word and keeps
the resulting live value as last set; a driven output gives IN_USE, another state WRONG_STATE, a frame slot or a
number that is no output BAD_PARAM (R91). SET_FRAME_SLOT from the owner replaces enable, identifier, length, period
and payload and keeps the last outcome; in TESTING the slot's schedule starts afresh, elsewhere its schedule stays. A
length above 8, an identifier above 2047 or a period of 0 gives BAD_PARAM (R95, R96). MODEL: the first due comes a
whole period after the moment of the command (R99), log entry 4, and no count byte stands before the eight payload
bytes, log entry 32. -/
def Obligations.OutputAndFrameSlotCommands : Prop :=
  (∀ (p : Port) (k : Fin 4) (o lo hi : Byte) (s : State), s.takes p →
     (5 ≤ o.toNat → exec (.setOutput p [byteOf k.val, o, lo, hi]) s = answered s p .badParam []) ∧
     (∀ tg, (o, tg) ∈ [((0 : Byte), Target.ao0), (1, .ao1), (2, .fo0), (3, .fo1), (4, .dl)] →
       (s.record k).owner = some p →
       ((s.record k).state = .powered ∨ (s.record k).state = .testing ∨ (s.record k).state = .hold →
         ((∃ c, (s.channel c).state ≠ .free ∧ (s.channel c).seat = some k ∧ (s.channel c).target = some tg) →
           exec (.setOutput p [byteOf k.val, o, lo, hi]) s = answered s p .inUse []) ∧
         ((∀ c, (s.channel c).state ≠ .free → (s.channel c).seat = some k → (s.channel c).target ≠ some tg) →
           exec (.setOutput p [byteOf k.val, o, lo, hi]) s =
             answered (s.setOutputs k (((s.seat k).outputs.take tg (word16 lo hi)).noteSet tg)) p .ok [])) ∧
       ((s.record k).state ≠ .powered → (s.record k).state ≠ .testing → (s.record k).state ≠ .hold →
         exec (.setOutput p [byteOf k.val, o, lo, hi]) s = answered s p .wrongState []))) ∧
  (∀ (p : Port) (k : Fin 4) (f : Fin 8) (en : Bool) (i0 i1 len p0 p1 : Byte) (payload : Vector Byte 8) (s : State),
     s.takes p → (s.record k).owner = some p →
     (2048 ≤ (word16 i0 i1).toNat ∨ 8 < len.toNat ∨ (word16 p0 p1).toNat = 0 →
       exec (.setFrameSlot p ([byteOf k.val, byteOf f.val, if en then 1 else 0, i0, i1, len, p0, p1] ++ payload.toList)) s
         = answered s p .badParam []) ∧
     ((word16 i0 i1).toNat < 2048 → len.toNat ≤ 8 → (word16 p0 p1).toNat ≠ 0 →
       exec (.setFrameSlot p ([byteOf k.val, byteOf f.val, if en then 1 else 0, i0, i1, len, p0, p1] ++ payload.toList)) s
         = answered (s.setFrame k f
             { enable := en, ident := (word16 i0 i1).setWidth 11, length := len.toNat, period := (word16 p0 p1).toNat,
               payload := payload, last := (s.frame k f).last,
               nextDue := if (s.record k).state = .testing then
                            (if en then some (s.clock.afterMs (word16 p0 p1).toNat) else none)
                          else (s.frame k f).nextDue,
               pending := if (s.record k).state = .testing then false else (s.frame k f).pending }) p .ok []))

/-- A due of a slot raises its next due by the period. On a link that is SENDING the slot becomes or stays pending and
nothing else changes; on an IDLE link in TESTING, with no other slot pending and no channel triggered by it, its
transmission starts and takes 100 us and 16 us for each byte (R96, R97). A transmission that completes records ACK or
NO_ACK in its slot, whatever the seat's state; outside TESTING, or with no slot pending, the link then stays IDLE
(R98, R99); in TESTING the pending slot of the lowest identifier, and of the lowest number among those, is sent next
(R97). The start of a transmission triggers the FRAME channels of its slot: one that targets the slot itself makes its
whole block first, so the frame carries its words, low byte first from position 0 on, four words at most; another is
asked for its block (R72, R76, R97). MODEL: a due is a whole number of periods after the moment its schedule started,
so that a first due comes a full period after it (R99), log entry 4. -/
def Obligations.FrameTransmission : Prop :=
  (∀ (s : State) (k : Fin 4) (f : Fin 8) (t0 : Instant), (s.frame k f).nextDue = some t0 →
     Instant.reached s.clock t0 = true →
     ((s.seat k).link ≠ .idle → exec (.frameSlotDue k f) s = .next (s.setFrame k f
       { s.frame k f with pending := true, nextDue := some (t0.afterMs (s.frame k f).period) })) ∧
     ((s.seat k).link = .idle → (s.record k).state = .testing → (∀ g, g ≠ f → (s.frame k g).pending = false) →
       (∀ c, (s.channel c).frameTriggered k f = false) → exec (.frameSlotDue k f) s = .next ((s.setFrame k f
         { s.frame k f with pending := false, nextDue := some (t0.afterMs (s.frame k f).period) }).setLink k
         (.sending f (s.frame k f).ident ((s.frame k f).payload.toList.take (s.frame k f).length)
           (s.clock.afterUs (100 + 16 * min (s.frame k f).length 8))))) ∧
     (∀ (c : Fin 8) (x : Target) (p : Program) (b : Nat), (s.seat k).link = .idle → (s.record k).state = .testing →
       (∀ g, g ≠ f → (s.frame k g).pending = false) →
       (∀ d, (s.channel d).state ≠ .free ∧ (s.channel d).seat = some k ∧ (s.channel d).trigger = some (.frame f) ↔
         d = c) →
       (s.channel c).state = .armed ∨ (s.channel c).state = .running → (s.channel c).outstanding = 0 →
       (s.channel c).target = some x → s.channelProgram c = some p → b = min p.block (s.channel c).remaining → 1 ≤ b →
       (x ≠ .fs f → exec (.frameSlotDue k f) s = .next (((s.setFrame k f
         { s.frame k f with pending := false, nextDue := some (t0.afterMs (s.frame k f).period) }).setChannel c
         { s.channel c with state := .running, outstanding := b, made := 0 }).setLink k
         (.sending f (s.frame k f).ident ((s.frame k f).payload.toList.take (s.frame k f).length)
           (s.clock.afterUs (100 + 16 * min (s.frame k f).length 8))))) ∧
       (x = .fs f →
         (∀ i, i < b → ∃ q, (s.record k).owner = some q ∧
           (s.grant (regionOf ((advance p)^[i] (s.channel c).address))).grants q = true) →
         ∃ t, exec (.frameSlotDue k f) s = .next t ∧ (t.channel c).outstanding = 0 ∧
           (t.channel c).state =
             (if b = (s.channel c).remaining ∧ p.mode = .oneShot then .done else .running) ∧
           (t.channel c).remaining =
             (if b = (s.channel c).remaining then p.count else (s.channel c).remaining - b) ∧
           (∀ i : Fin 4, i.val < b →
             (t.frame k f).payload[2 * i.val]'(by omega) =
               lowByte (Memory.read s.pattern ((advance p)^[i.val] (s.channel c).address).toNat) ∧
             (t.frame k f).payload[2 * i.val + 1]'(by omega) =
               highByte (Memory.read s.pattern ((advance p)^[i.val] (s.channel c).address).toNat)) ∧
           (∀ j : Fin 8, 2 * b ≤ j.val → (t.frame k f).payload[j] = (s.frame k f).payload[j]) ∧
           (t.frame k f).pending = false ∧
           (t.seat k).link = .sending f (s.frame k f).ident
             ((t.frame k f).payload.toList.take (s.frame k f).length)
             (s.clock.afterUs (100 + 16 * min (s.frame k f).length 8))))) ∧
  (∀ (s : State) (k : Fin 4) (f : Fin 8) (ident : BitVec 11) (data : List Byte) (done : Instant) (ack : Bool),
     (s.seat k).link = .sending f ident data done → Instant.reached s.clock done = true →
     ((s.record k).state ≠ .testing ∨ (∀ g, (s.frame k g).pending = false) →
       exec (.transmissionComplete k ack) s =
         .next ((s.setFrame k f { s.frame k f with last := if ack then .ack else .noAck }).setLink k .idle)) ∧
     (∀ (g : Fin 8) (u : State), (s.record k).state = .testing → (s.frame k g).pending = true →
       (∀ h, (s.frame k h).pending = true → (s.frame k g).ident.toNat < (s.frame k h).ident.toNat ∨
         ((s.frame k g).ident = (s.frame k h).ident ∧ g ≤ h)) →
       (∀ c, (s.channel c).frameTriggered k g = false) →
       u = s.setFrame k f { s.frame k f with last := if ack then .ack else .noAck } →
       exec (.transmissionComplete k ack) s =
         .next ((u.setFrame k g { u.frame k g with pending := false }).setLink k
           (.sending g (s.frame k g).ident ((s.frame k g).payload.toList.take (s.frame k g).length)
             (s.clock.afterUs (100 + 16 * min (s.frame k g).length 8))))))

/-! ### Acquisition -/

/-- SET_CALIBRATION sets offset, gain and source SET and nothing else; an entry above 31 or an offset outside -2048 to
2047 gives BAD_PARAM (R105). STORE_CALIBRATION takes the entry's values and the moment 10 ms ahead and is ACCEPTED, or
refused BUSY while a store runs (R106). The end of a store writes the words the EEPROM accepted and no other, removes
the store, and posts STORE_DONE to the port that asked, STORED exactly when all three were accepted (R107). MODEL: the
words are written as one at the end of the store, log entry 21, and which of the three the EEPROM accepted is given
with the event, any of them, log entry 9. -/
def Obligations.CalibrationAndStore : Prop :=
  (∀ (p : Port) (s : State), s.takes p →
     (∀ (j : Fin 32) (o0 o1 g0 g1 : Byte), -2048 ≤ (word16 o0 o1).toInt → (word16 o0 o1).toInt ≤ 2047 →
       exec (.setCalibration p [byteOf j.val, o0, o1, g0, g1]) s =
         answered { s with calibration := s.calibration.set j
                             { offset := (word16 o0 o1).toInt, gain := word16 g0 g1, source := .set } } p .ok []) ∧
     (∀ e o0 o1 g0 g1 : Byte, 32 ≤ e.toNat ∨ (word16 o0 o1).toInt < -2048 ∨ 2047 < (word16 o0 o1).toInt →
       exec (.setCalibration p [e, o0, o1, g0, g1]) s = answered s p .badParam []) ∧
     (∀ j : Fin 32, exec (.storeCalibration p [byteOf j.val]) s =
       if s.loader.store = none then
         answered { s with loader := { s.loader with
           store := some { port := p, entry := j, offset := (s.cal j).offset, gain := (s.cal j).gain,
                           finish := msAfter s.now 10 } } } p .accepted []
       else answered s p .busy [])) ∧
  (∀ (s : State) (x : StoreOp) (acc : StoreAccepted), s.loader.store = some x → msReached s.now x.finish = true →
     Memory.wf s.eeprom →
     ∃ m, exec (.storeEnd acc) s = .next
       (State.setPort { s with eeprom := m, loader := { s.loader with store := none } } x.port
         ((s.port x.port).post
           { kind := .storeDone, level := 0, seat := none, stepId := none,
             code := if acc.signature && acc.offset && acc.gain then 0 else 1, count := some x.entry.val,
             time := s.now })) ∧
       ∀ a, Memory.read m a =
         if a = 0 then (if acc.signature then 0x5A36 else Memory.read s.eeprom 0)
         else if a = 2 * x.entry.val + 1 then
           (if acc.offset then BitVec.ofInt 16 x.offset else Memory.read s.eeprom a)
         else if a = 2 * x.entry.val + 2 then (if acc.gain then x.gain else Memory.read s.eeprom a)
         else Memory.read s.eeprom a)

/-- A gate that opens puts its slot in SAMPLING, due at once; a slot whose next due comes is due. Behind a busy
converter nothing else changes; an IDLE converter with no other slot due starts the slot's conversion, which samples
the input of the seat, moves next due on by the interval, the pointer to the slot, and completes 20 us later (R103,
R111, R112, R113). The code is 0 below 0 V, one code for each 2.5 V / 4096 from 0 V up, and 4095 above (R103; MODEL:
between two codes the lower, log entry 9). A completed conversion is discarded when its slot is not SAMPLING under the
binding it was taken for; otherwise the slot's sample is counted and processed with the calibration as it stands. With
no other slot due the converter is IDLE afterwards; with several due it takes the first after the pointer (R113). A
sample that does not latch changes the slot alone; one that latches hands its report to the running step, PASS or
MARGINAL, which goes on while another part is open and ends with it otherwise (R36, R114, R121, R126). -/
def Obligations.ConverterEvents : Prop :=
  (∀ (s : State) (m : Fin 6),
     (s.gateReady m = true → s.converter ≠ .idle → exec (.gateTimeReached m) s = .next (s.setSlot m
       { s.slot m with state := .sampling, gateTime := none, nextDue := some s.now, due := true })) ∧
     (s.slotDueReady m = true → s.converter ≠ .idle →
       exec (.slotDue m) s = .next (s.setSlot m { s.slot m with due := true })) ∧
     (∀ k i x l, s.converter = .idle → (∀ n, (s.slot n).due = false) → (s.slot m).seat = some k →
       (s.slot m).input = some i → (s.slot m).limit = some x → (s.limit x).limit = some l →
       (s.gateReady m = true → exec (.gateTimeReached m) s = .next
         { s.setSlot m { s.slot m with state := .sampling, gateTime := none, due := false,
                                       nextDue := some (msAfter s.now l.interval) } with
           rotation := m,
           converter := .converting m (s.slot m).binding ⟨8 * k.val + i.val, by omega⟩ (s.clock.afterUs 20)
             (rawCode (s.inputVolts ⟨8 * k.val + i.val, by omega⟩)) }) ∧
       (∀ t0, s.slotDueReady m = true → (s.slot m).nextDue = some t0 → exec (.slotDue m) s = .next
         { s.setSlot m { s.slot m with due := false, nextDue := some (msAfter t0 l.interval) } with
           rotation := m,
           converter := .converting m (s.slot m).binding ⟨8 * k.val + i.val, by omega⟩ (s.clock.afterUs 20)
             (rawCode (s.inputVolts ⟨8 * k.val + i.val, by omega⟩)) }))) ∧
  (∀ (v : Rat) (n : Nat), (v < 0 → rawCode v = 0) ∧
     (n ≤ 4095 → (n : Rat) * (5 / 2 / 4096) ≤ v → v < ((n : Rat) + 1) * (5 / 2 / 4096) → (rawCode v).toNat = n) ∧
     (5 / 2 ≤ v → rawCode v = 4095)) ∧
  (∀ (s : State) (m : Fin 6) (b : Nat) (input : Fin 32) (done : Instant) (raw : BitVec 12),
     s.converter = .converting m b input done raw → Instant.reached s.clock done = true →
     ((∀ n, (s.slot n).due = false) →
       ((s.slot m).state ≠ .sampling ∨ (s.slot m).binding ≠ b →
         exec (.conversionComplete m) s = .next { s with converter := .idle }) ∧
       (∀ k i x l y, (s.slot m).state = .sampling → (s.slot m).binding = b → (s.slot m).seat = some k →
         (s.slot m).measurement = some i → (s.slot m).limit = some x → (s.limit x).limit = some l →
         y = MeasSlot.takeSample { s.slot m with samples := (s.slot m).samples + 1 } l (calibrate raw (s.cal input)) →
         (y.state ≠ .latched →
           exec (.conversionComplete m) s = .next { s.setSlot m y with converter := .idle }) ∧
         (∀ (r : Running) (z : MeasReport), y.state = .latched → (s.seat k).running = some r →
           z = { verdict := if y.runMarginal then .marginal else .pass, value := y.y, samples := y.samples } →
           r.measReports[i.val]? = some none →
           ((r.step.expectation ≠ none ∧ r.expectReport = none) ∨ (r.step.prompt ≠ none ∧ r.promptReport = none) ∨
               (∃ j, j ≠ i.val ∧ r.measReports[j]? = some none) →
             exec (.conversionComplete m) s = .next { (s.setSlot m y).setRunning k
               (some { r with measReports := r.measReports.set i.val (some z) }) with converter := .idle }) ∧
           ((s.record k).state = .testing → r.step.expectation = none → r.expectReport = none →
             r.step.prompt = none → r.promptReport = none → r.measReports = [none] → i = 0 →
             (s.seat k).queue = [] →
             ∃ t e, exec (.conversionComplete m) s = .next t ∧ (t.record k).state = .powered ∧
               (t.seat k).running = none ∧ (t.seat k).results = (s.seat k).results.append e ∧
               e.stepId = r.step.id ∧ e.outcome = z.verdict ∧ e.deciding = .measurement0 ∧ e.cause = none ∧
               e.measurements = [{ value := y.y, samples := y.samples }])))) ∧
     (∀ n k i x l, (s.slot m).state ≠ .sampling ∨ (s.slot m).binding ≠ b → (s.slot n).due = true →
       (∀ j, (s.slot j).due = true → n - s.rotation - 1 ≤ j - s.rotation - 1) →
       (s.slot n).seat = some k → (s.slot n).input = some i → (s.slot n).limit = some x → (s.limit x).limit = some l →
       exec (.conversionComplete m) s = .next
         { s.setSlot n { s.slot n with due := false,
                                       nextDue := (s.slot n).nextDue.map (fun t => msAfter t l.interval) } with
           rotation := n,
           converter := .converting n (s.slot n).binding ⟨8 * k.val + i.val, by omega⟩ (s.clock.afterUs 20)
             (rawCode (s.inputVolts ⟨8 * k.val + i.val, by omega⟩)) }))

/-! ### The verdict arithmetic -/

/-- Calibration: the difference times the gain, over 4096, rounded half up, saturated to 16 bits (R122). -/
def Obligations.CalibrationIsExact : Prop :=
  ∀ (raw : BitVec 12) (c : CalEntry), -2048 ≤ c.offset → c.offset ≤ 2047 →
    (-2047 ≤ (raw.toNat : Int) - c.offset ∧ (raw.toNat : Int) - c.offset ≤ 6143) ∧
    (-134150145 ≤ ((raw.toNat : Int) - c.offset) * c.gain.toNat ∧
      ((raw.toNat : Int) - c.offset) * c.gain.toNat ≤ 402581505) ∧
    calibrate raw c = min 32767 (Int.fdiv (((raw.toNat : Int) - c.offset) * c.gain.toNat + 2048) 4096) ∧
    -32752 ≤ calibrate raw c ∧
    (c.gain = 4096 → c.offset = 0 → calibrate raw c = raw.toNat) ∧
    (c.gain = 0 → calibrate raw c = 0) ∧
    (c.gain = 65535 → 2048 ≤ (raw.toNat : Int) - c.offset → calibrate raw c = 32767) ∧
    (raw = 0 → c.offset = 2047 → c.gain = 65535 → calibrate raw c = -32752)

/-- The filter: the first sample is the seed; later ones move y by the difference over 2^k rounded toward minus
infinity, so that y stays between its old value and the sample, a shift of 0 follows the sample, a y below by less
than 2^k stays, and a y above moves down (R123). In SETTLE the run count and flag act by the zone (R125), and in the
peak modes the extreme keeps the largest or smallest y (R127). The zones of a filtered value: below L, above H,
between the inner bounds, or in range but not inside; they cover every value, with g = 0 nothing is MARGINAL, with 2g
above H - L nothing is INSIDE, and a band of the whole range leaves nothing out (R124). The zone of a sample is stored
in every mode. -/
def Obligations.FilterAndZones : Prop :=
  ((∀ (k : Nat) (c y : Int), filterValue k none c = c ∧
     filterValue k (some y) c = y + Int.fdiv (c - y) (2 ^ k) ∧
     min y c ≤ filterValue k (some y) c ∧ filterValue k (some y) c ≤ max y c ∧ filterValue 0 (some y) c = c ∧
     (y ≤ c → c - y < 2 ^ k → filterValue k (some y) c = y) ∧ (c < y → filterValue k (some y) c ≤ y - 1)) ∧
   (∀ (n : Nat) (flag : Bool), runAfter .inside n flag = (n + 1, flag) ∧ runAfter .marginal n flag = (n + 1, true) ∧
     runAfter .outLow n flag = (0, false) ∧ runAfter .outHigh n flag = (0, false)) ∧
   (∀ (m : MeasSlot) (l : Limit) (c : Int),
     (m.takeSample l c).y = some (filterValue l.shift m.y c) ∧
     (m.takeSample l c).zone = zoneOf l (filterValue l.shift m.y c) ∧
     (l.mode = .peakMax → (m.takeSample l c).extreme =
       some (max (filterValue l.shift m.y c) (m.extreme.getD (filterValue l.shift m.y c)))) ∧
     (l.mode = .peakMin → (m.takeSample l c).extreme =
       some (min (filterValue l.shift m.y c) (m.extreme.getD (filterValue l.shift m.y c)))) ∧
     (l.mode = .settle → (m.takeSample l c).run =
         (runAfter (zoneOf l (filterValue l.shift m.y c)) m.run m.runMarginal).1 ∧
       (m.takeSample l c).runMarginal = (runAfter (zoneOf l (filterValue l.shift m.y c)) m.run m.runMarginal).2 ∧
       (m.takeSample l c).extreme = m.extreme ∧
       ((m.takeSample l c).run = l.settle → (m.takeSample l c).state = .latched ∧ (m.takeSample l c).due = false ∧
         (m.takeSample l c).nextDue = none) ∧
       ((m.takeSample l c).run ≠ l.settle → (m.takeSample l c).state = m.state)) ∧
     (l.mode ≠ .settle → (m.takeSample l c).run = m.run ∧ (m.takeSample l c).runMarginal = m.runMarginal ∧
       (m.takeSample l c).state = m.state))) ∧
  (∀ (l : Limit) (y : Int), l.low ≤ l.high →
     (zoneOf l y = .outLow ↔ y < l.low) ∧ (zoneOf l y = .outHigh ↔ l.high < y) ∧
     (zoneOf l y = .inside ↔ l.low + l.guard ≤ y ∧ y ≤ l.high - l.guard) ∧
     (zoneOf l y = .marginal ↔
       (l.low ≤ y ∧ y ≤ l.high) ∧ ¬ (l.low + l.guard ≤ y ∧ y ≤ l.high - l.guard)) ∧
     zoneOf l y ≠ .none ∧ (l.guard = 0 → zoneOf l y ≠ .marginal) ∧
     (l.high - l.low < 2 * l.guard → zoneOf l y ≠ .inside) ∧
     (l.low = -32768 → l.high = 32767 → -32768 ≤ y → y ≤ 32767 → zoneOf l y ≠ .outLow ∧ zoneOf l y ≠ .outHigh) ∧
     (∀ (m : MeasSlot) (c : Int), (m.takeSample l c).zone = zoneOf l (filterValue l.shift m.y c)))

/-! ### Frame capture -/

/-- SET_FILTER and SET_ACCEPT_LONG replace their setting and FLUSH_CAPTURE empties the queue with the number removed,
each from the owner in every state and each changing nothing else; READ_CAPTURE removes and returns the oldest record
with the number left, and CAPTURE_STATUS clears the overflow flag alone (R133, R134, R136, R137, R138). The setting
byte of SET_ACCEPT_LONG is 0 for ON and 1 for OFF by R180, which numbers a named value in the order of its list, ON
and OFF in R132. MODEL: that R180 reaches this byte is log entry 27, and an absent capture record is spelled as nine
zero bytes, log entry 15. A capture record is spelled as R182 lays it out, and CAPTURE_STATUS field by field (R137).
MODEL: its eight filters stand without a count byte, log entry 32. -/
def Obligations.CaptureCommands : Prop :=
  (∀ (p : Port) (k : Fin 4) (s : State), s.takes p →
    ((s.record k).owner = some p →
      (∀ (f : Fin 8) (en : Bool) (i0 i1 m0 m1 : Byte),
        exec (.setFilter p [byteOf k.val, byteOf f.val, if en then 1 else 0, i0, i1, m0, m1]) s =
          if (word16 i0 i1).toNat < 2048 ∧ (word16 m0 m1).toNat < 2048 then
            answered (s.setCapture k
              { s.capture k with
                filters := (s.capture k).filters.set f
                  { enable := en, ident := (word16 i0 i1).setWidth 11, mask := (word16 m0 m1).setWidth 11 } }) p .ok []
          else answered s p .badParam []) ∧
      (∀ v : Byte, exec (.setAcceptLong p [byteOf k.val, v]) s =
        if v = 0 then answered (s.setCapture k { s.capture k with acceptLong := true }) p .ok []
        else if v = 1 then answered (s.setCapture k { s.capture k with acceptLong := false }) p .ok []
        else answered s p .badParam []) ∧
      exec (.flushCapture p [byteOf k.val]) s =
        answered (s.setCapture k { s.capture k with queue := [] }) p .ok [byteOf (s.capture k).queue.length]) ∧
    ((s.capture k).queue = [] → exec (.readCapture p [byteOf k.val]) s = answered s p .ok ([0, 0] ++ zeros 9)) ∧
    (∀ r rest, (s.capture k).queue = r :: rest → exec (.readCapture p [byteOf k.val]) s =
      answered (s.setCapture k { s.capture k with queue := rest }) p .ok ([1, byteOf rest.length] ++ eCapture r)) ∧
    exec (.captureStatus p [byteOf k.val]) s =
      answered (s.setCapture k { s.capture k with overflow := false }) p .ok (s.capture k).statusBytes) ∧
  (∀ r : CaptureRecord, eCapture r =
    bytes16 r.ident.toNat ++ [byteOf r.data.length, if 8 < r.data.length then 1 else 0] ++ bytes32 r.time.toNat ++
      [byteOf r.filter.val] ++ r.data) ∧
  (∀ c : Capture, c.statusBytes =
    [byteOf c.queue.length, if c.overflow then 1 else 0, if c.acceptLong then 0 else 1] ++
      c.filters.toList.flatMap (fun f =>
        [if f.enable then (1 : Byte) else 0] ++ bytes16 f.ident.toNat ++ bytes16 f.mask.toNat) ++
      [match c.expectState with
       | .inactive => 0
       | .watching => 1
       | .decided => 2,
       byteOf c.matchCount, if c.afterSeen then 1 else 0] ++
      optional1 (c.verdict.map StepOutcome.rank))

/-- An identifier passes a mask when it agrees in every bit where the mask has a 1. A frame matches a pattern when its
length satisfies the rule, a LONG frame satisfying none, and every position whose care mask is not 0 lies in the frame
and agrees where the care mask has a 1; a frame that does not pass leaves the match count and the after-seen flag
(R141). An examined LONG frame clears the after-seen flag where there is an after pattern. A counted frame decides at
the required count with PASS and at once under ABSENT with FAIL_PATTERN (R142, R143). -/
def Obligations.FrameMatchesPattern : Prop :=
  (∀ ident mask frame : BitVec 11,
    identMatch ident mask frame = true ↔ ∀ i, mask.getLsbD i = true → ident.getLsbD i = frame.getLsbD i) ∧
  (∀ (p : FramePattern) (data : List Byte), p.matches data = true ↔
    (match p.rule with
     | .exact n => data.length = n ∧ data.length ≤ 8
     | .any => data.length ≤ 8) ∧
    ∀ j : Fin 8, p.care[j] ≠ 0 → ∃ b, data[j.val]? = some b ∧
      ∀ i, (p.care[j]).getLsbD i = true → b.getLsbD i = (p.bytes[j]).getLsbD i) ∧
  (∀ (c : Capture) (e : Expectation) (ident : BitVec 11) (data : List Byte), c.expectation = some e →
    identMatch e.ident e.mask ident = false → c.examine ident data = (c, none)) ∧
  (∀ (c : Capture) (ident : BitVec 11) (data : List Byte), 8 < data.length →
    (c.examine ident data).1.matchCount = c.matchCount ∧ (c.examine ident data).2 = none) ∧
  (∀ (c : Capture) (e : Expectation) (ident : BitVec 11) (data : List Byte), c.expectState = .watching →
    c.expectation = some e → identMatch e.ident e.mask ident = true → e.pattern.matches data = true →
    e.after = none ∨ c.afterSeen = true →
    (c.examine ident data).1.matchCount = c.matchCount + 1 ∧
    (∀ q, e.after = some q → (c.examine ident data).1.afterSeen = q.matches data) ∧
    (e.mode = .absent → (c.examine ident data).1.expectState = .decided ∧
      (c.examine ident data).2 = some { verdict := .failPattern, count := c.matchCount + 1 }) ∧
    (e.mode = .present → c.matchCount + 1 = e.required → (c.examine ident data).1.expectState = .decided ∧
      (c.examine ident data).2 = some { verdict := .pass, count := e.required }) ∧
    (e.mode = .present → c.matchCount + 1 ≠ e.required → (c.examine ident data).1.expectState = .watching ∧
      (c.examine ident data).2 = none)) ∧
  (∀ (c : Capture) (e : Expectation) (q : FramePattern) (ident : BitVec 11) (data : List Byte),
    c.expectState = .watching → c.expectation = some e → identMatch e.ident e.mask ident = true → e.after = some q →
    8 < data.length → (c.examine ident data).1.afterSeen = false)

/-- The link acknowledges a frame on the bus from the end of the load on, in every seat state; before that a frame is
neither acknowledged nor handed on (R100). A reception after the load that no expectation examines, because none is
watched or the identifier does not pass its mask, is stored by the first enabled filter that matches it, unless it is
LONG with accept-long OFF; a full queue sets the overflow flag instead (R100, R135, R141). A frame examined without
deciding counts and sets the after-seen flag as R142 gives, and is then stored in the same way (R135). A frame that
decides hands its report to the running step, FAIL_PATTERN at once under ABSENT and PASS at the required count under
PRESENT, which goes on while another part is open; the frame is stored too (R135, R143, R145). -/
def Obligations.FrameReceivedIsStored : Prop :=
  (∀ (s : State) (k : Fin 4) (ident : BitVec 11) (data : List Byte), s.acknowledges k = s.isReady ∧
    (s.isReady = false → exec (.frameReceived k ident data) s = .next s)) ∧
  ∀ (s : State) (k : Fin 4) (ident : BitVec 11) (data : List Byte), s.isReady = true →
    ((s.capture k).expectState ≠ .watching ∨
        (∃ e, (s.capture k).expectation = some e ∧ identMatch e.ident e.mask ident = false) →
      ((∀ f : Fin 8, ((s.capture k).filters[f]).matches ident = false) ∨
          (8 < data.length ∧ (s.capture k).acceptLong = false) →
        exec (.frameReceived k ident data) s = .next s) ∧
      (∀ f : Fin 8, ((s.capture k).filters[f]).matches ident = true →
        (∀ g, g < f → ((s.capture k).filters[g]).matches ident = false) →
        data.length ≤ 8 ∨ (s.capture k).acceptLong = true →
        exec (.frameReceived k ident data) s = .next (s.setCapture k
          (if (s.capture k).queue.length < 16 then
            { s.capture k with
              queue := (s.capture k).queue ++ [{ ident := ident, data := data, time := s.now, filter := f }] }
           else { s.capture k with overflow := true })))) ∧
    (∀ e u, (s.capture k).expectState = .watching → (s.capture k).expectation = some e →
      identMatch e.ident e.mask ident = true →
      (e.mode = .present ∧ (s.capture k).matchCount + 1 ≠ e.required) ∨
        (e.pattern.matches data && (e.after.isNone || (s.capture k).afterSeen)) = false →
      u = { s.capture k with
            matchCount := if e.pattern.matches data && (e.after.isNone || (s.capture k).afterSeen)
                          then (s.capture k).matchCount + 1 else (s.capture k).matchCount,
            afterSeen := match e.after with
                         | none => (s.capture k).afterSeen
                         | some q => q.matches data } →
      ((∀ f : Fin 8, ((s.capture k).filters[f]).matches ident = false) ∨
          (8 < data.length ∧ (s.capture k).acceptLong = false) →
        exec (.frameReceived k ident data) s = .next (s.setCapture k u)) ∧
      (∀ f : Fin 8, ((s.capture k).filters[f]).matches ident = true →
        (∀ g, g < f → ((s.capture k).filters[g]).matches ident = false) →
        data.length ≤ 8 ∨ (s.capture k).acceptLong = true →
        exec (.frameReceived k ident data) s = .next (s.setCapture k
          (if u.queue.length < 16 then
            { u with queue := u.queue ++ [{ ident := ident, data := data, time := s.now, filter := f }] }
           else { u with overflow := true })))) ∧
    (∀ e u v r, (s.capture k).expectState = .watching → (s.capture k).expectation = some e →
      identMatch e.ident e.mask ident = true → e.pattern.matches data = true →
      e.after = none ∨ (s.capture k).afterSeen = true →
      (e.mode = .absent ∧ v = .failPattern) ∨
        (e.mode = .present ∧ (s.capture k).matchCount + 1 = e.required ∧ v = .pass) →
      (s.seat k).running = some r → r.step.expectation ≠ none → r.expectReport = none →
      (r.step.prompt ≠ none ∧ r.promptReport = none) ∨ (∃ j : Nat, r.measReports[j]? = some none) →
      u = { s.capture k with
            matchCount := (s.capture k).matchCount + 1, expectState := .decided, verdict := some v,
            afterSeen := match e.after with
                         | none => (s.capture k).afterSeen
                         | some q => q.matches data } →
      ((∀ f : Fin 8, ((s.capture k).filters[f]).matches ident = false) →
        exec (.frameReceived k ident data) s = .next ((s.setCapture k u).setRunning k
          (some { r with expectReport := some { verdict := v, count := (s.capture k).matchCount + 1 } }))) ∧
      (∀ f : Fin 8, ((s.capture k).filters[f]).matches ident = true →
        (∀ g, g < f → ((s.capture k).filters[g]).matches ident = false) →
        exec (.frameReceived k ident data) s = .next ((s.setCapture k
          (if u.queue.length < 16 then
            { u with queue := u.queue ++ [{ ident := ident, data := data, time := s.now, filter := f }] }
           else { u with overflow := true })).setRunning k
          (some { r with expectReport := some { verdict := v, count := (s.capture k).matchCount + 1 } }))))

/-! ### The panel -/

/-- SET_CURSOR sets page and column and keeps the latch, and is refused WRONG_STATE in read-modify-write; RMW_BEGIN
saves the column and sets the flag, RMW_END returns to the column and clears it, each refused WRONG_STATE in the other
case (R149, R153). SET_LAMP from the owner sets the set mode in every state; a lamp whose effective mode changes
starts a fresh period, one overridden by FAULT or an open prompt keeps its phase; a mode that is none of the four
gives BAD_PARAM (R160, R161). MODEL: R160 gives a fresh period to a lamp that becomes SLOW or FAST; that the phase is
set to 0 at a change to OFF or STEADY as well is log entry 23. -/
def Obligations.CursorAndLampCommands : Prop :=
  (∀ (p : Port) (s : State), s.takes p →
     (∀ (g : Fin 8) (c : Fin 128), exec (.setCursor p [byteOf g.val, byteOf c.val]) s =
       if (s.cursor p).rmw then answered s p .wrongState []
       else answered (s.setCursor p { s.cursor p with page := g, column := c }) p .ok []) ∧
     (∀ x y : Byte, 8 ≤ x.toNat ∨ 128 ≤ y.toNat → exec (.setCursor p [x, y]) s = answered s p .badParam []) ∧
     (exec (.rmwBegin p []) s =
       if (s.cursor p).rmw then answered s p .wrongState []
       else answered (s.setCursor p { s.cursor p with saved := (s.cursor p).column, rmw := true }) p .ok []) ∧
     (exec (.rmwEnd p []) s =
       if (s.cursor p).rmw then
         answered (s.setCursor p { s.cursor p with column := (s.cursor p).saved, rmw := false }) p .ok []
       else answered s p .wrongState [])) ∧
  (∀ (p : Port) (k : Fin 4) (s : State), s.takes p → (s.record k).owner = some p →
     (∀ b : Byte, 4 ≤ b.toNat → exec (.setLamp p [byteOf k.val, b]) s = answered s p .badParam []) ∧
     (∀ m : LampMode, exec (.setLamp p [byteOf k.val, byteOf m.code]) s =
       answered (s.setLamp k { mode := m, phase :=
         if (s.record k).state = .fault ∨ (s.prompt k).isOpen = true ∨ (s.lamp k).mode = m then (s.lamp k).phase else 0 })
         p .ok []))

/-- WRITE_PANEL writes its bytes from the cursor's column on; the last column takes every byte past the end and the
last of them stands; other bytes of the RAM, the page and the latch stay. Another port's seat refuses it NOT_OWNER, an
open prompt PANE_HELD, a count in error BAD_PARAM (R150, R151). READ_PANEL returns the latch first and then the bytes
of the page from the cursor's column on, keeps the last byte loaded in the latch, and moves the column on, staying at
127; in read-modify-write the column stays. A count outside 1 to 128 gives BAD_PARAM (R152). Bit j of the byte at page
p and column c is the dot at row 8p + j, lit for 1; the panel lights the dots of the RAM while the display is ON and
all-points NORMAL, every dot while it is ON and FORCED, and none while it is OFF (R147, R162). -/
def Obligations.PanelTransfers : Prop :=
  (∀ (p : Port) (bs : List Byte) (s : State), s.takes p → Memory.wf s.panel.ram →
     ∀ seat : Fin 4, seat.val = (s.cursor p).page.val / 2 →
     (∀ n : Byte, n.toNat = 0 ∨ 128 < n.toNat ∨ bs.length ≠ n.toNat →
       exec (.writePanel p (n :: bs)) s = answered s p .badParam []) ∧
     (1 ≤ bs.length → bs.length ≤ 128 →
       ((s.record seat).owner = some (otherPort p) →
         exec (.writePanel p (byteOf bs.length :: bs)) s = answered s p .notOwner []) ∧
       ((s.record seat).owner ≠ some (otherPort p) → (s.prompt seat).isOpen = true →
         exec (.writePanel p (byteOf bs.length :: bs)) s = answered s p .paneHeld []) ∧
       ((s.record seat).owner ≠ some (otherPort p) → (s.prompt seat).isOpen = false →
         ∃ m col, exec (.writePanel p (byteOf bs.length :: bs)) s =
             answered (State.setCursor { s with panel := { s.panel with ram := m } } p
               { s.cursor p with column := col }) p .ok [] ∧
           col.val = min 127 ((s.cursor p).column.val + bs.length) ∧
           (∀ i, i < bs.length → (s.cursor p).column.val + i < 127 →
             Memory.read m (128 * (s.cursor p).page.val + ((s.cursor p).column.val + i)) = bs.getD i 0) ∧
           (127 < (s.cursor p).column.val + bs.length →
             Memory.read m (128 * (s.cursor p).page.val + 127) = bs.getD (bs.length - 1) 0) ∧
           (∀ a, a < 128 * (s.cursor p).page.val + (s.cursor p).column.val ∨
               128 * (s.cursor p).page.val + min 128 ((s.cursor p).column.val + bs.length) ≤ a →
             Memory.read m a = Memory.read s.panel.ram a)))) ∧
  (∀ (p : Port) (n : Byte) (s : State), s.takes p →
     (n.toNat = 0 ∨ 128 < n.toNat → exec (.readPanel p [n]) s = answered s p .badParam []) ∧
     (1 ≤ n.toNat → n.toNat ≤ 128 → ∃ bytes latch col,
       exec (.readPanel p [n]) s =
         answered (s.setCursor p { s.cursor p with latch := latch, column := col }) p .ok bytes ∧
       bytes.length = n.toNat ∧ bytes.getD 0 0 = (s.cursor p).latch ∧
       (∀ i, i < n.toNat → (bytes ++ [latch]).getD (i + 1) 0 = Memory.read s.panel.ram
         (128 * (s.cursor p).page.val +
           (if (s.cursor p).rmw then (s.cursor p).column.val else min 127 ((s.cursor p).column.val + i)))) ∧
       col.val = (if (s.cursor p).rmw then (s.cursor p).column.val else min 127 ((s.cursor p).column.val + n.toNat)))) ∧
  (∀ (x : Panel) (page : Fin 8) (j : Fin 8) (column : Fin 128),
     x.dot ⟨8 * page.val + j.val, by omega⟩ column =
       match x.display, x.allPoints with
       | .on, .normal => (Memory.read x.ram (128 * page.val + column.val)).getLsbD j.val
       | .on, .forced => true
       | .off, _ => false)

/-- PANEL_ON, PANEL_OFF, ALL_POINTS_NORMAL and ALL_POINTS_FORCED each set their own field from either port and are
answered OK. The saver is entered when display OFF and all-points FORCED come together, STANDBY when a lamp's
effective mode is not OFF and SLEEP otherwise, keeps its kind when a field is repeated, and is left when they part;
the RAM, the prompts, the cursors and the lamps' modes stay (R162, R163). On leaving SLEEP the lamps start a fresh
period. MODEL: R163 says so of the blinking ones; that the phase of the others is set to 0 too is log entry 23. -/
def Obligations.PanelModeCommands : Prop :=
  ∀ (p : Port) (s : State), s.takes p → s.SaverLawful →
    ∀ c d a, (c, d, a) ∈ [(Instr.panelOn p [], Display.on, s.panel.allPoints), (.panelOff p [], .off, s.panel.allPoints),
      (.allPointsNormal p [], s.panel.display, AllPoints.normal), (.allPointsForced p [], s.panel.display, .forced)] →
    ∃ t, exec c s = answered t p .ok [] ∧ t.panel.display = d ∧ t.panel.allPoints = a ∧
      (d = .off ∧ a = .forced → t.panel.saver =
        if s.panel.saver = .none then (if ∃ k, s.effectiveLamp k ≠ .off then .standby else .sleep)
        else s.panel.saver) ∧
      (¬ (d = .off ∧ a = .forced) → t.panel.saver = .none) ∧
      (s.panel.saver = .sleep → t.panel.saver = .none → ∀ k, (t.lamp k).phase = 0) ∧
      (s.panel.saver ≠ .sleep ∨ t.panel.saver ≠ .none → t.panel.lamps = s.panel.lamps) ∧
      (∀ k, (t.lamp k).mode = (s.lamp k).mode) ∧
      { t.panel with display := s.panel.display, allPoints := s.panel.allPoints, saver := s.panel.saver,
                     lamps := s.panel.lamps } = s.panel ∧
      { t with panel := s.panel } = s

/-- Opening a prompt copies the bitmap into both pages of the seat's pane with zeros behind it, opens the record,
shows the RAM and leaves the saver; every other byte of the RAM stays (R155). -/
def Obligations.PromptOpens : Prop :=
  ∀ (s : State) (k : Fin 4) (pr : Prompt), Memory.wf s.panel.ram → 1 ≤ pr.width → pr.width ≤ 128 →
    (s.openPrompt k pr).prompt k = { isOpen := true, expected := some pr.expected, width := some pr.width } ∧
    (s.openPrompt k pr).panel.display = .on ∧ (s.openPrompt k pr).panel.allPoints = .normal ∧
    (s.openPrompt k pr).panel.saver = .none ∧
    ((s.record k).state ≠ .fault → (s.openPrompt k pr).effectiveLamp k = .fast) ∧
    (∀ c, c < 128 →
      Memory.read (s.openPrompt k pr).panel.ram (128 * (2 * k.val) + c) =
        (if c < pr.width then lowByte (Memory.read s.pattern (pr.addr.toNat + c)) else 0) ∧
      Memory.read (s.openPrompt k pr).panel.ram (128 * (2 * k.val + 1) + c) =
        (if c < pr.width then highByte (Memory.read s.pattern (pr.addr.toNat + c)) else 0)) ∧
    (∀ a, a < 256 * k.val ∨ 256 * k.val + 256 ≤ a →
      Memory.read (s.openPrompt k pr).panel.ram a = Memory.read s.panel.ram a) ∧
    (s.openPrompt k pr).cursor .a = s.cursor .a ∧ (s.openPrompt k pr).cursor .b = s.cursor .b

/-- A key that answers the only open part of a step with nothing queued behind it: PASS for the expected answer or
EITHER, OPERATOR_NO otherwise; the prompt closes, the result carries the answer, and the seat goes to POWERED, or to
HOLD for OPERATOR_NO under HOLD_SEAT (R156, R158). -/
def Obligations.KeyAnswersPrompt : Prop :=
  ∀ (s : State) (k : Fin 4) (a : YesNo) (r : Running) (x : Expected) (out : StepOutcome),
    s.pressReady (.answer k a) = true → s.isReady = true → (s.prompt k).isOpen = true →
    (s.prompt k).expected = some x → (s.record k).state = .testing → (s.seat k).running = some r →
    r.measReports = [] → r.step.expectation = none → r.expectReport = none → r.promptReport = none →
    (s.seat k).queue = [] →
    out = (if x = .either ∨ (x = .yes ∧ a = .yes) ∨ (x = .no ∧ a = .no) then .pass else .operatorNo) →
    ∃ t, exec (.keyPress k a) s = .next t ∧ (t.prompt k).isOpen = false ∧ (t.seat k).running = none ∧
      (t.record k).state = (if out = .operatorNo ∧ r.step.policy = .holdSeat then .hold else .powered) ∧
      ∃ e, (t.seat k).results = (s.seat k).results.append e ∧ e.stepId = r.step.id ∧ e.outcome = out ∧
        e.deciding = .prompt ∧ e.answer = some a

/-- A STOP press after the load leaves no seat in TESTING; with no seat waiting, every seat that was in TESTING is in
HOLD with its queue kept, and every other seat's record is as it was (R159). MODEL: the order of the seats is free and
the arbiter runs after each, log entries 11 and 12. -/
def Obligations.StopKeyHoldsEverySeat : Prop :=
  ∀ s : State, s.pressReady .stop = true → s.isReady = true →
    ∃ t, exec .stopKeyPress s = .next t ∧ (∀ k, (t.record k).state ≠ .testing) ∧ t.pattern = s.pattern ∧
      (s.waitList = [] →
        (∀ k, (s.record k).state = .testing → (t.record k).state = .hold ∧ (t.seat k).queue = (s.seat k).queue ∧
          (t.seat k).running = none ∧
          ∀ r, (s.seat k).running = some r → ∃ e, (t.seat k).results = (s.seat k).results.append e ∧
            e.stepId = r.step.id ∧ e.outcome = .aborted ∧ e.cause = some .stopKey) ∧
        (∀ k, (s.record k).state ≠ .testing → t.record k = s.record k ∧ (t.seat k).results = (s.seat k).results))

/-! ### Results -/

/-- The summary after an append is the worse of its value and the class of the outcome, in the order NONE, PASS,
MARGINAL, FAIL, ABORTED, stored or not, and never improves (R169); an entry is stored at the tail while the list holds
fewer than 64, and sets the truncated flag otherwise (R168). CLEAR_RESULTS outside TESTING, from the owner or from
either port of an unowned seat, empties the store and removes the serial and answers the number removed; SET_SERIAL
from the owner outside VACANT sets the serial unless one stands beside recorded results; otherwise WRONG_STATE and
RESULTS_PENDING; a text in error gives BAD_PARAM (R172, R173). -/
def Obligations.ResultStoreLaws : Prop :=
  (∀ (r : ResultStore) (e : ResultEntry),
     ((r.append e).summary = r.summary ∨ (r.append e).summary = e.outcome.summaryClass) ∧
     r.summary.code ≤ (r.append e).summary.code ∧ e.outcome.summaryClass.code ≤ (r.append e).summary.code ∧
     e.outcome.summaryClass =
       (if e.outcome = .pass then .pass else if e.outcome = .marginal then .marginal
        else if e.outcome = .aborted then .aborted else .fail) ∧
     (Summary.none.code < Summary.pass.code ∧ Summary.pass.code < Summary.marginal.code ∧
       Summary.marginal.code < Summary.fail.code ∧ Summary.fail.code < Summary.aborted.code) ∧
     (r.entries.length < 64 → (r.append e).entries = r.entries ++ [e] ∧ (r.append e).truncated = r.truncated) ∧
     (64 ≤ r.entries.length → (r.append e).entries = r.entries ∧ (r.append e).truncated = true)) ∧
  (∀ (p : Port) (k : Fin 4) (s : State), s.takes p →
     ((s.record k).owner ≠ some (otherPort p) → (s.record k).state ≠ .testing →
       exec (.clearResults p [byteOf k.val]) s = answered ((s.setResults k
         { entries := [], summary := .none, truncated := false }).setRecord k { s.record k with serial := none }) p .ok
         [byteOf (s.seat k).results.entries.length]) ∧
     ((s.record k).owner ≠ some (otherPort p) → (s.record k).state = .testing →
       exec (.clearResults p [byteOf k.val]) s = answered s p .wrongState []) ∧
     (∀ x : List Byte, x.length ≤ 24 → (∀ b ∈ x, 0x20 ≤ b.toNat ∧ b.toNat ≤ 0x7E) → (s.record k).owner = some p →
       exec (.setSerial p ([byteOf k.val, byteOf x.length] ++ x)) s =
         if (s.record k).state = .vacant then answered s p .wrongState []
         else if (s.record k).serial ≠ none ∧ (s.seat k).results.summary ≠ .none then answered s p .resultsPending []
         else answered (s.setRecord k { s.record k with serial := some x }) p .ok []) ∧
     (∀ (n : Byte) (x : List Byte), 24 < n.toNat ∨ x.length ≠ n.toNat ∨ (∃ b ∈ x, b.toNat < 0x20 ∨ 0x7E < b.toNat) →
       exec (.setSerial p ([byteOf k.val, n] ++ x)) s = answered s p .badParam []))
end

