-- ==== Sys2Proof/Laws/State.lean ====
section
/-! SUPPORT. What each update of the state leaves unchanged, field by field and record by record, and what it
writes: all true by definition, so that no later proof unfolds a record update. -/

namespace Sys2Proof
namespace Machine

/-- What `setSeat` leaves unchanged. -/
@[simp] theorem setSeat_keeps (s : State) (j : Fin 4) (x : Seat) :
    (s.setSeat j x).pending = s.pending ∧ (s.setSeat j x).draws = s.draws ∧ (s.setSeat j x).bindings = s.bindings ∧
    (s.setSeat j x).clock = s.clock ∧ (s.setSeat j x).loader = s.loader ∧ (s.setSeat j x).eeprom = s.eeprom ∧
    (s.setSeat j x).pattern = s.pattern ∧ (s.setSeat j x).grants = s.grants ∧
    (s.setSeat j x).programs = s.programs ∧ (s.setSeat j x).channels = s.channels ∧
    (s.setSeat j x).limits = s.limits ∧ (s.setSeat j x).calibration = s.calibration ∧
    (s.setSeat j x).slots = s.slots ∧ (s.setSeat j x).inputs = s.inputs ∧ (s.setSeat j x).converter = s.converter ∧
    (s.setSeat j x).rotation = s.rotation ∧ (s.setSeat j x).waitList = s.waitList ∧
    (s.setSeat j x).panel = s.panel ∧ (s.setSeat j x).portA = s.portA ∧ (s.setSeat j x).portB = s.portB ∧
    (∀ c, (s.setSeat j x).channel c = s.channel c) ∧ (∀ m, (s.setSeat j x).slot m = s.slot m) ∧
    (∀ i, (s.setSeat j x).program i = s.program i) ∧ (∀ i, (s.setSeat j x).limit i = s.limit i) ∧
    (∀ i, (s.setSeat j x).cal i = s.cal i) ∧ (∀ r, (s.setSeat j x).grant r = s.grant r) ∧
    (∀ p, (s.setSeat j x).port p = s.port p) ∧ (∀ p, (s.setSeat j x).cursor p = s.cursor p) ∧
    (∀ k, (s.setSeat j x).prompt k = s.prompt k) ∧ (∀ k, (s.setSeat j x).lamp k = s.lamp k) ∧
    (∀ y, (s.setSeat j x).key y = s.key y) ∧ (s.setSeat j x).now = s.now ∧ (s.setSeat j x).isReady = s.isReady := by
  repeat' apply And.intro
  all_goals first | rfl | (intros; rfl)

/-- What `setRecord` leaves unchanged. -/
@[simp] theorem setRecord_keeps (s : State) (j : Fin 4) (x : SeatRecord) :
    (s.setRecord j x).pending = s.pending ∧ (s.setRecord j x).draws = s.draws ∧
    (s.setRecord j x).bindings = s.bindings ∧ (s.setRecord j x).clock = s.clock ∧
    (s.setRecord j x).loader = s.loader ∧ (s.setRecord j x).eeprom = s.eeprom ∧
    (s.setRecord j x).pattern = s.pattern ∧ (s.setRecord j x).grants = s.grants ∧
    (s.setRecord j x).programs = s.programs ∧ (s.setRecord j x).channels = s.channels ∧
    (s.setRecord j x).limits = s.limits ∧ (s.setRecord j x).calibration = s.calibration ∧
    (s.setRecord j x).slots = s.slots ∧ (s.setRecord j x).inputs = s.inputs ∧
    (s.setRecord j x).converter = s.converter ∧ (s.setRecord j x).rotation = s.rotation ∧
    (s.setRecord j x).waitList = s.waitList ∧ (s.setRecord j x).panel = s.panel ∧
    (s.setRecord j x).portA = s.portA ∧ (s.setRecord j x).portB = s.portB ∧
    (∀ c, (s.setRecord j x).channel c = s.channel c) ∧ (∀ m, (s.setRecord j x).slot m = s.slot m) ∧
    (∀ i, (s.setRecord j x).program i = s.program i) ∧ (∀ i, (s.setRecord j x).limit i = s.limit i) ∧
    (∀ i, (s.setRecord j x).cal i = s.cal i) ∧ (∀ r, (s.setRecord j x).grant r = s.grant r) ∧
    (∀ p, (s.setRecord j x).port p = s.port p) ∧ (∀ p, (s.setRecord j x).cursor p = s.cursor p) ∧
    (∀ k, (s.setRecord j x).prompt k = s.prompt k) ∧ (∀ k, (s.setRecord j x).lamp k = s.lamp k) ∧
    (∀ y, (s.setRecord j x).key y = s.key y) ∧ (s.setRecord j x).now = s.now ∧
    (s.setRecord j x).isReady = s.isReady := by
  repeat' apply And.intro
  all_goals first | rfl | (intros; rfl)

/-- What `setQueue` leaves unchanged. -/
@[simp] theorem setQueue_keeps (s : State) (j : Fin 4) (x : List Step) :
    (s.setQueue j x).pending = s.pending ∧ (s.setQueue j x).draws = s.draws ∧
    (s.setQueue j x).bindings = s.bindings ∧ (s.setQueue j x).clock = s.clock ∧
    (s.setQueue j x).loader = s.loader ∧ (s.setQueue j x).eeprom = s.eeprom ∧
    (s.setQueue j x).pattern = s.pattern ∧ (s.setQueue j x).grants = s.grants ∧
    (s.setQueue j x).programs = s.programs ∧ (s.setQueue j x).channels = s.channels ∧
    (s.setQueue j x).limits = s.limits ∧ (s.setQueue j x).calibration = s.calibration ∧
    (s.setQueue j x).slots = s.slots ∧ (s.setQueue j x).inputs = s.inputs ∧
    (s.setQueue j x).converter = s.converter ∧ (s.setQueue j x).rotation = s.rotation ∧
    (s.setQueue j x).waitList = s.waitList ∧ (s.setQueue j x).panel = s.panel ∧ (s.setQueue j x).portA = s.portA ∧
    (s.setQueue j x).portB = s.portB ∧ (∀ c, (s.setQueue j x).channel c = s.channel c) ∧
    (∀ m, (s.setQueue j x).slot m = s.slot m) ∧ (∀ i, (s.setQueue j x).program i = s.program i) ∧
    (∀ i, (s.setQueue j x).limit i = s.limit i) ∧ (∀ i, (s.setQueue j x).cal i = s.cal i) ∧
    (∀ r, (s.setQueue j x).grant r = s.grant r) ∧ (∀ p, (s.setQueue j x).port p = s.port p) ∧
    (∀ p, (s.setQueue j x).cursor p = s.cursor p) ∧ (∀ k, (s.setQueue j x).prompt k = s.prompt k) ∧
    (∀ k, (s.setQueue j x).lamp k = s.lamp k) ∧ (∀ y, (s.setQueue j x).key y = s.key y) ∧
    (s.setQueue j x).now = s.now ∧ (s.setQueue j x).isReady = s.isReady := by
  repeat' apply And.intro
  all_goals first | rfl | (intros; rfl)

/-- What `setRunning` leaves unchanged. -/
@[simp] theorem setRunning_keeps (s : State) (j : Fin 4) (x : Option Running) :
    (s.setRunning j x).pending = s.pending ∧ (s.setRunning j x).draws = s.draws ∧
    (s.setRunning j x).bindings = s.bindings ∧ (s.setRunning j x).clock = s.clock ∧
    (s.setRunning j x).loader = s.loader ∧ (s.setRunning j x).eeprom = s.eeprom ∧
    (s.setRunning j x).pattern = s.pattern ∧ (s.setRunning j x).grants = s.grants ∧
    (s.setRunning j x).programs = s.programs ∧ (s.setRunning j x).channels = s.channels ∧
    (s.setRunning j x).limits = s.limits ∧ (s.setRunning j x).calibration = s.calibration ∧
    (s.setRunning j x).slots = s.slots ∧ (s.setRunning j x).inputs = s.inputs ∧
    (s.setRunning j x).converter = s.converter ∧ (s.setRunning j x).rotation = s.rotation ∧
    (s.setRunning j x).waitList = s.waitList ∧ (s.setRunning j x).panel = s.panel ∧
    (s.setRunning j x).portA = s.portA ∧ (s.setRunning j x).portB = s.portB ∧
    (∀ c, (s.setRunning j x).channel c = s.channel c) ∧ (∀ m, (s.setRunning j x).slot m = s.slot m) ∧
    (∀ i, (s.setRunning j x).program i = s.program i) ∧ (∀ i, (s.setRunning j x).limit i = s.limit i) ∧
    (∀ i, (s.setRunning j x).cal i = s.cal i) ∧ (∀ r, (s.setRunning j x).grant r = s.grant r) ∧
    (∀ p, (s.setRunning j x).port p = s.port p) ∧ (∀ p, (s.setRunning j x).cursor p = s.cursor p) ∧
    (∀ k, (s.setRunning j x).prompt k = s.prompt k) ∧ (∀ k, (s.setRunning j x).lamp k = s.lamp k) ∧
    (∀ y, (s.setRunning j x).key y = s.key y) ∧ (s.setRunning j x).now = s.now ∧
    (s.setRunning j x).isReady = s.isReady := by
  repeat' apply And.intro
  all_goals first | rfl | (intros; rfl)

/-- What `setOutputs` leaves unchanged. -/
@[simp] theorem setOutputs_keeps (s : State) (j : Fin 4) (x : Outputs) :
    (s.setOutputs j x).pending = s.pending ∧ (s.setOutputs j x).draws = s.draws ∧
    (s.setOutputs j x).bindings = s.bindings ∧ (s.setOutputs j x).clock = s.clock ∧
    (s.setOutputs j x).loader = s.loader ∧ (s.setOutputs j x).eeprom = s.eeprom ∧
    (s.setOutputs j x).pattern = s.pattern ∧ (s.setOutputs j x).grants = s.grants ∧
    (s.setOutputs j x).programs = s.programs ∧ (s.setOutputs j x).channels = s.channels ∧
    (s.setOutputs j x).limits = s.limits ∧ (s.setOutputs j x).calibration = s.calibration ∧
    (s.setOutputs j x).slots = s.slots ∧ (s.setOutputs j x).inputs = s.inputs ∧
    (s.setOutputs j x).converter = s.converter ∧ (s.setOutputs j x).rotation = s.rotation ∧
    (s.setOutputs j x).waitList = s.waitList ∧ (s.setOutputs j x).panel = s.panel ∧
    (s.setOutputs j x).portA = s.portA ∧ (s.setOutputs j x).portB = s.portB ∧
    (∀ c, (s.setOutputs j x).channel c = s.channel c) ∧ (∀ m, (s.setOutputs j x).slot m = s.slot m) ∧
    (∀ i, (s.setOutputs j x).program i = s.program i) ∧ (∀ i, (s.setOutputs j x).limit i = s.limit i) ∧
    (∀ i, (s.setOutputs j x).cal i = s.cal i) ∧ (∀ r, (s.setOutputs j x).grant r = s.grant r) ∧
    (∀ p, (s.setOutputs j x).port p = s.port p) ∧ (∀ p, (s.setOutputs j x).cursor p = s.cursor p) ∧
    (∀ k, (s.setOutputs j x).prompt k = s.prompt k) ∧ (∀ k, (s.setOutputs j x).lamp k = s.lamp k) ∧
    (∀ y, (s.setOutputs j x).key y = s.key y) ∧ (s.setOutputs j x).now = s.now ∧
    (s.setOutputs j x).isReady = s.isReady := by
  repeat' apply And.intro
  all_goals first | rfl | (intros; rfl)

/-- What `setFrame` leaves unchanged. -/
@[simp] theorem setFrame_keeps (s : State) (j : Fin 4) (g : Fin 8) (x : FrameSlot) :
    (s.setFrame j g x).pending = s.pending ∧ (s.setFrame j g x).draws = s.draws ∧
    (s.setFrame j g x).bindings = s.bindings ∧ (s.setFrame j g x).clock = s.clock ∧
    (s.setFrame j g x).loader = s.loader ∧ (s.setFrame j g x).eeprom = s.eeprom ∧
    (s.setFrame j g x).pattern = s.pattern ∧ (s.setFrame j g x).grants = s.grants ∧
    (s.setFrame j g x).programs = s.programs ∧ (s.setFrame j g x).channels = s.channels ∧
    (s.setFrame j g x).limits = s.limits ∧ (s.setFrame j g x).calibration = s.calibration ∧
    (s.setFrame j g x).slots = s.slots ∧ (s.setFrame j g x).inputs = s.inputs ∧
    (s.setFrame j g x).converter = s.converter ∧ (s.setFrame j g x).rotation = s.rotation ∧
    (s.setFrame j g x).waitList = s.waitList ∧ (s.setFrame j g x).panel = s.panel ∧
    (s.setFrame j g x).portA = s.portA ∧ (s.setFrame j g x).portB = s.portB ∧
    (∀ c, (s.setFrame j g x).channel c = s.channel c) ∧ (∀ m, (s.setFrame j g x).slot m = s.slot m) ∧
    (∀ i, (s.setFrame j g x).program i = s.program i) ∧ (∀ i, (s.setFrame j g x).limit i = s.limit i) ∧
    (∀ i, (s.setFrame j g x).cal i = s.cal i) ∧ (∀ r, (s.setFrame j g x).grant r = s.grant r) ∧
    (∀ p, (s.setFrame j g x).port p = s.port p) ∧ (∀ p, (s.setFrame j g x).cursor p = s.cursor p) ∧
    (∀ k, (s.setFrame j g x).prompt k = s.prompt k) ∧ (∀ k, (s.setFrame j g x).lamp k = s.lamp k) ∧
    (∀ y, (s.setFrame j g x).key y = s.key y) ∧ (s.setFrame j g x).now = s.now ∧
    (s.setFrame j g x).isReady = s.isReady := by
  repeat' apply And.intro
  all_goals first | rfl | (intros; rfl)

/-- What `setLink` leaves unchanged. -/
@[simp] theorem setLink_keeps (s : State) (j : Fin 4) (x : FrameLink) :
    (s.setLink j x).pending = s.pending ∧ (s.setLink j x).draws = s.draws ∧ (s.setLink j x).bindings = s.bindings ∧
    (s.setLink j x).clock = s.clock ∧ (s.setLink j x).loader = s.loader ∧ (s.setLink j x).eeprom = s.eeprom ∧
    (s.setLink j x).pattern = s.pattern ∧ (s.setLink j x).grants = s.grants ∧
    (s.setLink j x).programs = s.programs ∧ (s.setLink j x).channels = s.channels ∧
    (s.setLink j x).limits = s.limits ∧ (s.setLink j x).calibration = s.calibration ∧
    (s.setLink j x).slots = s.slots ∧ (s.setLink j x).inputs = s.inputs ∧ (s.setLink j x).converter = s.converter ∧
    (s.setLink j x).rotation = s.rotation ∧ (s.setLink j x).waitList = s.waitList ∧
    (s.setLink j x).panel = s.panel ∧ (s.setLink j x).portA = s.portA ∧ (s.setLink j x).portB = s.portB ∧
    (∀ c, (s.setLink j x).channel c = s.channel c) ∧ (∀ m, (s.setLink j x).slot m = s.slot m) ∧
    (∀ i, (s.setLink j x).program i = s.program i) ∧ (∀ i, (s.setLink j x).limit i = s.limit i) ∧
    (∀ i, (s.setLink j x).cal i = s.cal i) ∧ (∀ r, (s.setLink j x).grant r = s.grant r) ∧
    (∀ p, (s.setLink j x).port p = s.port p) ∧ (∀ p, (s.setLink j x).cursor p = s.cursor p) ∧
    (∀ k, (s.setLink j x).prompt k = s.prompt k) ∧ (∀ k, (s.setLink j x).lamp k = s.lamp k) ∧
    (∀ y, (s.setLink j x).key y = s.key y) ∧ (s.setLink j x).now = s.now ∧ (s.setLink j x).isReady = s.isReady := by
  repeat' apply And.intro
  all_goals first | rfl | (intros; rfl)

/-- What `setCapture` leaves unchanged. -/
@[simp] theorem setCapture_keeps (s : State) (j : Fin 4) (x : Capture) :
    (s.setCapture j x).pending = s.pending ∧ (s.setCapture j x).draws = s.draws ∧
    (s.setCapture j x).bindings = s.bindings ∧ (s.setCapture j x).clock = s.clock ∧
    (s.setCapture j x).loader = s.loader ∧ (s.setCapture j x).eeprom = s.eeprom ∧
    (s.setCapture j x).pattern = s.pattern ∧ (s.setCapture j x).grants = s.grants ∧
    (s.setCapture j x).programs = s.programs ∧ (s.setCapture j x).channels = s.channels ∧
    (s.setCapture j x).limits = s.limits ∧ (s.setCapture j x).calibration = s.calibration ∧
    (s.setCapture j x).slots = s.slots ∧ (s.setCapture j x).inputs = s.inputs ∧
    (s.setCapture j x).converter = s.converter ∧ (s.setCapture j x).rotation = s.rotation ∧
    (s.setCapture j x).waitList = s.waitList ∧ (s.setCapture j x).panel = s.panel ∧
    (s.setCapture j x).portA = s.portA ∧ (s.setCapture j x).portB = s.portB ∧
    (∀ c, (s.setCapture j x).channel c = s.channel c) ∧ (∀ m, (s.setCapture j x).slot m = s.slot m) ∧
    (∀ i, (s.setCapture j x).program i = s.program i) ∧ (∀ i, (s.setCapture j x).limit i = s.limit i) ∧
    (∀ i, (s.setCapture j x).cal i = s.cal i) ∧ (∀ r, (s.setCapture j x).grant r = s.grant r) ∧
    (∀ p, (s.setCapture j x).port p = s.port p) ∧ (∀ p, (s.setCapture j x).cursor p = s.cursor p) ∧
    (∀ k, (s.setCapture j x).prompt k = s.prompt k) ∧ (∀ k, (s.setCapture j x).lamp k = s.lamp k) ∧
    (∀ y, (s.setCapture j x).key y = s.key y) ∧ (s.setCapture j x).now = s.now ∧
    (s.setCapture j x).isReady = s.isReady := by
  repeat' apply And.intro
  all_goals first | rfl | (intros; rfl)

/-- What `setResults` leaves unchanged. -/
@[simp] theorem setResults_keeps (s : State) (j : Fin 4) (x : ResultStore) :
    (s.setResults j x).pending = s.pending ∧ (s.setResults j x).draws = s.draws ∧
    (s.setResults j x).bindings = s.bindings ∧ (s.setResults j x).clock = s.clock ∧
    (s.setResults j x).loader = s.loader ∧ (s.setResults j x).eeprom = s.eeprom ∧
    (s.setResults j x).pattern = s.pattern ∧ (s.setResults j x).grants = s.grants ∧
    (s.setResults j x).programs = s.programs ∧ (s.setResults j x).channels = s.channels ∧
    (s.setResults j x).limits = s.limits ∧ (s.setResults j x).calibration = s.calibration ∧
    (s.setResults j x).slots = s.slots ∧ (s.setResults j x).inputs = s.inputs ∧
    (s.setResults j x).converter = s.converter ∧ (s.setResults j x).rotation = s.rotation ∧
    (s.setResults j x).waitList = s.waitList ∧ (s.setResults j x).panel = s.panel ∧
    (s.setResults j x).portA = s.portA ∧ (s.setResults j x).portB = s.portB ∧
    (∀ c, (s.setResults j x).channel c = s.channel c) ∧ (∀ m, (s.setResults j x).slot m = s.slot m) ∧
    (∀ i, (s.setResults j x).program i = s.program i) ∧ (∀ i, (s.setResults j x).limit i = s.limit i) ∧
    (∀ i, (s.setResults j x).cal i = s.cal i) ∧ (∀ r, (s.setResults j x).grant r = s.grant r) ∧
    (∀ p, (s.setResults j x).port p = s.port p) ∧ (∀ p, (s.setResults j x).cursor p = s.cursor p) ∧
    (∀ k, (s.setResults j x).prompt k = s.prompt k) ∧ (∀ k, (s.setResults j x).lamp k = s.lamp k) ∧
    (∀ y, (s.setResults j x).key y = s.key y) ∧ (s.setResults j x).now = s.now ∧
    (s.setResults j x).isReady = s.isReady := by
  repeat' apply And.intro
  all_goals first | rfl | (intros; rfl)

/-- What `setChannel` leaves unchanged. -/
@[simp] theorem setChannel_keeps (s : State) (j : Fin 8) (x : Channel) :
    (s.setChannel j x).pending = s.pending ∧ (s.setChannel j x).draws = s.draws ∧
    (s.setChannel j x).bindings = s.bindings ∧ (s.setChannel j x).clock = s.clock ∧
    (s.setChannel j x).loader = s.loader ∧ (s.setChannel j x).eeprom = s.eeprom ∧
    (s.setChannel j x).pattern = s.pattern ∧ (s.setChannel j x).grants = s.grants ∧
    (s.setChannel j x).programs = s.programs ∧ (s.setChannel j x).limits = s.limits ∧
    (s.setChannel j x).calibration = s.calibration ∧ (s.setChannel j x).slots = s.slots ∧
    (s.setChannel j x).inputs = s.inputs ∧ (s.setChannel j x).converter = s.converter ∧
    (s.setChannel j x).rotation = s.rotation ∧ (s.setChannel j x).waitList = s.waitList ∧
    (s.setChannel j x).seats = s.seats ∧ (s.setChannel j x).panel = s.panel ∧ (s.setChannel j x).portA = s.portA ∧
    (s.setChannel j x).portB = s.portB ∧ (∀ k, (s.setChannel j x).seat k = s.seat k) ∧
    (∀ k, (s.setChannel j x).record k = s.record k) ∧ (∀ k, (s.setChannel j x).capture k = s.capture k) ∧
    (∀ k f, (s.setChannel j x).frame k f = s.frame k f) ∧ (∀ m, (s.setChannel j x).slot m = s.slot m) ∧
    (∀ i, (s.setChannel j x).program i = s.program i) ∧ (∀ i, (s.setChannel j x).limit i = s.limit i) ∧
    (∀ i, (s.setChannel j x).cal i = s.cal i) ∧ (∀ r, (s.setChannel j x).grant r = s.grant r) ∧
    (∀ p, (s.setChannel j x).port p = s.port p) ∧ (∀ p, (s.setChannel j x).cursor p = s.cursor p) ∧
    (∀ k, (s.setChannel j x).prompt k = s.prompt k) ∧ (∀ k, (s.setChannel j x).lamp k = s.lamp k) ∧
    (∀ y, (s.setChannel j x).key y = s.key y) ∧ (s.setChannel j x).now = s.now ∧
    (s.setChannel j x).isReady = s.isReady := by
  repeat' apply And.intro
  all_goals first | rfl | (intros; rfl)

/-- What `setSlot` leaves unchanged. -/
@[simp] theorem setSlot_keeps (s : State) (j : Fin 6) (x : MeasSlot) :
    (s.setSlot j x).pending = s.pending ∧ (s.setSlot j x).draws = s.draws ∧ (s.setSlot j x).bindings = s.bindings ∧
    (s.setSlot j x).clock = s.clock ∧ (s.setSlot j x).loader = s.loader ∧ (s.setSlot j x).eeprom = s.eeprom ∧
    (s.setSlot j x).pattern = s.pattern ∧ (s.setSlot j x).grants = s.grants ∧
    (s.setSlot j x).programs = s.programs ∧ (s.setSlot j x).channels = s.channels ∧
    (s.setSlot j x).limits = s.limits ∧ (s.setSlot j x).calibration = s.calibration ∧
    (s.setSlot j x).inputs = s.inputs ∧ (s.setSlot j x).converter = s.converter ∧
    (s.setSlot j x).rotation = s.rotation ∧ (s.setSlot j x).waitList = s.waitList ∧
    (s.setSlot j x).seats = s.seats ∧ (s.setSlot j x).panel = s.panel ∧ (s.setSlot j x).portA = s.portA ∧
    (s.setSlot j x).portB = s.portB ∧ (∀ k, (s.setSlot j x).seat k = s.seat k) ∧
    (∀ k, (s.setSlot j x).record k = s.record k) ∧ (∀ k, (s.setSlot j x).capture k = s.capture k) ∧
    (∀ k f, (s.setSlot j x).frame k f = s.frame k f) ∧ (∀ c, (s.setSlot j x).channel c = s.channel c) ∧
    (∀ i, (s.setSlot j x).program i = s.program i) ∧ (∀ i, (s.setSlot j x).limit i = s.limit i) ∧
    (∀ i, (s.setSlot j x).cal i = s.cal i) ∧ (∀ r, (s.setSlot j x).grant r = s.grant r) ∧
    (∀ p, (s.setSlot j x).port p = s.port p) ∧ (∀ p, (s.setSlot j x).cursor p = s.cursor p) ∧
    (∀ k, (s.setSlot j x).prompt k = s.prompt k) ∧ (∀ k, (s.setSlot j x).lamp k = s.lamp k) ∧
    (∀ y, (s.setSlot j x).key y = s.key y) ∧ (s.setSlot j x).now = s.now ∧ (s.setSlot j x).isReady = s.isReady := by
  repeat' apply And.intro
  all_goals first | rfl | (intros; rfl)

/-- What `setProgram` leaves unchanged. -/
@[simp] theorem setProgram_keeps (s : State) (j : Fin 48) (x : ProgramEntry) :
    (s.setProgram j x).pending = s.pending ∧ (s.setProgram j x).draws = s.draws ∧
    (s.setProgram j x).bindings = s.bindings ∧ (s.setProgram j x).clock = s.clock ∧
    (s.setProgram j x).loader = s.loader ∧ (s.setProgram j x).eeprom = s.eeprom ∧
    (s.setProgram j x).pattern = s.pattern ∧ (s.setProgram j x).grants = s.grants ∧
    (s.setProgram j x).channels = s.channels ∧ (s.setProgram j x).limits = s.limits ∧
    (s.setProgram j x).calibration = s.calibration ∧ (s.setProgram j x).slots = s.slots ∧
    (s.setProgram j x).inputs = s.inputs ∧ (s.setProgram j x).converter = s.converter ∧
    (s.setProgram j x).rotation = s.rotation ∧ (s.setProgram j x).waitList = s.waitList ∧
    (s.setProgram j x).seats = s.seats ∧ (s.setProgram j x).panel = s.panel ∧ (s.setProgram j x).portA = s.portA ∧
    (s.setProgram j x).portB = s.portB ∧ (∀ k, (s.setProgram j x).seat k = s.seat k) ∧
    (∀ k, (s.setProgram j x).record k = s.record k) ∧ (∀ k, (s.setProgram j x).capture k = s.capture k) ∧
    (∀ k f, (s.setProgram j x).frame k f = s.frame k f) ∧ (∀ c, (s.setProgram j x).channel c = s.channel c) ∧
    (∀ m, (s.setProgram j x).slot m = s.slot m) ∧ (∀ i, (s.setProgram j x).limit i = s.limit i) ∧
    (∀ i, (s.setProgram j x).cal i = s.cal i) ∧ (∀ r, (s.setProgram j x).grant r = s.grant r) ∧
    (∀ p, (s.setProgram j x).port p = s.port p) ∧ (∀ p, (s.setProgram j x).cursor p = s.cursor p) ∧
    (∀ k, (s.setProgram j x).prompt k = s.prompt k) ∧ (∀ k, (s.setProgram j x).lamp k = s.lamp k) ∧
    (∀ y, (s.setProgram j x).key y = s.key y) ∧ (s.setProgram j x).now = s.now ∧
    (s.setProgram j x).isReady = s.isReady := by
  repeat' apply And.intro
  all_goals first | rfl | (intros; rfl)

/-- What `setLimit` leaves unchanged. -/
@[simp] theorem setLimit_keeps (s : State) (j : Fin 256) (x : LimitEntry) :
    (s.setLimit j x).pending = s.pending ∧ (s.setLimit j x).draws = s.draws ∧
    (s.setLimit j x).bindings = s.bindings ∧ (s.setLimit j x).clock = s.clock ∧
    (s.setLimit j x).loader = s.loader ∧ (s.setLimit j x).eeprom = s.eeprom ∧
    (s.setLimit j x).pattern = s.pattern ∧ (s.setLimit j x).grants = s.grants ∧
    (s.setLimit j x).programs = s.programs ∧ (s.setLimit j x).channels = s.channels ∧
    (s.setLimit j x).calibration = s.calibration ∧ (s.setLimit j x).slots = s.slots ∧
    (s.setLimit j x).inputs = s.inputs ∧ (s.setLimit j x).converter = s.converter ∧
    (s.setLimit j x).rotation = s.rotation ∧ (s.setLimit j x).waitList = s.waitList ∧
    (s.setLimit j x).seats = s.seats ∧ (s.setLimit j x).panel = s.panel ∧ (s.setLimit j x).portA = s.portA ∧
    (s.setLimit j x).portB = s.portB ∧ (∀ k, (s.setLimit j x).seat k = s.seat k) ∧
    (∀ k, (s.setLimit j x).record k = s.record k) ∧ (∀ k, (s.setLimit j x).capture k = s.capture k) ∧
    (∀ k f, (s.setLimit j x).frame k f = s.frame k f) ∧ (∀ c, (s.setLimit j x).channel c = s.channel c) ∧
    (∀ m, (s.setLimit j x).slot m = s.slot m) ∧ (∀ i, (s.setLimit j x).program i = s.program i) ∧
    (∀ i, (s.setLimit j x).cal i = s.cal i) ∧ (∀ r, (s.setLimit j x).grant r = s.grant r) ∧
    (∀ p, (s.setLimit j x).port p = s.port p) ∧ (∀ p, (s.setLimit j x).cursor p = s.cursor p) ∧
    (∀ k, (s.setLimit j x).prompt k = s.prompt k) ∧ (∀ k, (s.setLimit j x).lamp k = s.lamp k) ∧
    (∀ y, (s.setLimit j x).key y = s.key y) ∧ (s.setLimit j x).now = s.now ∧
    (s.setLimit j x).isReady = s.isReady := by
  repeat' apply And.intro
  all_goals first | rfl | (intros; rfl)

/-- What `setGrant` leaves unchanged. -/
@[simp] theorem setGrant_keeps (s : State) (j : Fin 32) (x : Grant) :
    (s.setGrant j x).pending = s.pending ∧ (s.setGrant j x).draws = s.draws ∧
    (s.setGrant j x).bindings = s.bindings ∧ (s.setGrant j x).clock = s.clock ∧
    (s.setGrant j x).loader = s.loader ∧ (s.setGrant j x).eeprom = s.eeprom ∧
    (s.setGrant j x).pattern = s.pattern ∧ (s.setGrant j x).programs = s.programs ∧
    (s.setGrant j x).channels = s.channels ∧ (s.setGrant j x).limits = s.limits ∧
    (s.setGrant j x).calibration = s.calibration ∧ (s.setGrant j x).slots = s.slots ∧
    (s.setGrant j x).inputs = s.inputs ∧ (s.setGrant j x).converter = s.converter ∧
    (s.setGrant j x).rotation = s.rotation ∧ (s.setGrant j x).waitList = s.waitList ∧
    (s.setGrant j x).seats = s.seats ∧ (s.setGrant j x).panel = s.panel ∧ (s.setGrant j x).portA = s.portA ∧
    (s.setGrant j x).portB = s.portB ∧ (∀ k, (s.setGrant j x).seat k = s.seat k) ∧
    (∀ k, (s.setGrant j x).record k = s.record k) ∧ (∀ k, (s.setGrant j x).capture k = s.capture k) ∧
    (∀ k f, (s.setGrant j x).frame k f = s.frame k f) ∧ (∀ c, (s.setGrant j x).channel c = s.channel c) ∧
    (∀ m, (s.setGrant j x).slot m = s.slot m) ∧ (∀ i, (s.setGrant j x).program i = s.program i) ∧
    (∀ i, (s.setGrant j x).limit i = s.limit i) ∧ (∀ i, (s.setGrant j x).cal i = s.cal i) ∧
    (∀ p, (s.setGrant j x).port p = s.port p) ∧ (∀ p, (s.setGrant j x).cursor p = s.cursor p) ∧
    (∀ k, (s.setGrant j x).prompt k = s.prompt k) ∧ (∀ k, (s.setGrant j x).lamp k = s.lamp k) ∧
    (∀ y, (s.setGrant j x).key y = s.key y) ∧ (s.setGrant j x).now = s.now ∧
    (s.setGrant j x).isReady = s.isReady := by
  repeat' apply And.intro
  all_goals first | rfl | (intros; rfl)

/-- What `setCal` leaves unchanged. -/
@[simp] theorem setCal_keeps (s : State) (j : Fin 32) (x : CalEntry) :
    (s.setCal j x).pending = s.pending ∧ (s.setCal j x).draws = s.draws ∧ (s.setCal j x).bindings = s.bindings ∧
    (s.setCal j x).clock = s.clock ∧ (s.setCal j x).loader = s.loader ∧ (s.setCal j x).eeprom = s.eeprom ∧
    (s.setCal j x).pattern = s.pattern ∧ (s.setCal j x).grants = s.grants ∧ (s.setCal j x).programs = s.programs ∧
    (s.setCal j x).channels = s.channels ∧ (s.setCal j x).limits = s.limits ∧ (s.setCal j x).slots = s.slots ∧
    (s.setCal j x).inputs = s.inputs ∧ (s.setCal j x).converter = s.converter ∧
    (s.setCal j x).rotation = s.rotation ∧ (s.setCal j x).waitList = s.waitList ∧ (s.setCal j x).seats = s.seats ∧
    (s.setCal j x).panel = s.panel ∧ (s.setCal j x).portA = s.portA ∧ (s.setCal j x).portB = s.portB ∧
    (∀ k, (s.setCal j x).seat k = s.seat k) ∧ (∀ k, (s.setCal j x).record k = s.record k) ∧
    (∀ k, (s.setCal j x).capture k = s.capture k) ∧ (∀ k f, (s.setCal j x).frame k f = s.frame k f) ∧
    (∀ c, (s.setCal j x).channel c = s.channel c) ∧ (∀ m, (s.setCal j x).slot m = s.slot m) ∧
    (∀ i, (s.setCal j x).program i = s.program i) ∧ (∀ i, (s.setCal j x).limit i = s.limit i) ∧
    (∀ r, (s.setCal j x).grant r = s.grant r) ∧ (∀ p, (s.setCal j x).port p = s.port p) ∧
    (∀ p, (s.setCal j x).cursor p = s.cursor p) ∧ (∀ k, (s.setCal j x).prompt k = s.prompt k) ∧
    (∀ k, (s.setCal j x).lamp k = s.lamp k) ∧ (∀ y, (s.setCal j x).key y = s.key y) ∧ (s.setCal j x).now = s.now ∧
    (s.setCal j x).isReady = s.isReady := by
  repeat' apply And.intro
  all_goals first | rfl | (intros; rfl)

/-- What `setStore` leaves unchanged. -/
@[simp] theorem setStore_keeps (s : State) (x : Option StoreOp) :
    (s.setStore x).pending = s.pending ∧ (s.setStore x).draws = s.draws ∧ (s.setStore x).bindings = s.bindings ∧
    (s.setStore x).clock = s.clock ∧ (s.setStore x).eeprom = s.eeprom ∧ (s.setStore x).pattern = s.pattern ∧
    (s.setStore x).grants = s.grants ∧ (s.setStore x).programs = s.programs ∧
    (s.setStore x).channels = s.channels ∧ (s.setStore x).limits = s.limits ∧
    (s.setStore x).calibration = s.calibration ∧ (s.setStore x).slots = s.slots ∧
    (s.setStore x).inputs = s.inputs ∧ (s.setStore x).converter = s.converter ∧
    (s.setStore x).rotation = s.rotation ∧ (s.setStore x).waitList = s.waitList ∧ (s.setStore x).seats = s.seats ∧
    (s.setStore x).panel = s.panel ∧ (s.setStore x).portA = s.portA ∧ (s.setStore x).portB = s.portB ∧
    (∀ k, (s.setStore x).seat k = s.seat k) ∧ (∀ k, (s.setStore x).record k = s.record k) ∧
    (∀ k, (s.setStore x).capture k = s.capture k) ∧ (∀ k f, (s.setStore x).frame k f = s.frame k f) ∧
    (∀ c, (s.setStore x).channel c = s.channel c) ∧ (∀ m, (s.setStore x).slot m = s.slot m) ∧
    (∀ i, (s.setStore x).program i = s.program i) ∧ (∀ i, (s.setStore x).limit i = s.limit i) ∧
    (∀ i, (s.setStore x).cal i = s.cal i) ∧ (∀ r, (s.setStore x).grant r = s.grant r) ∧
    (∀ p, (s.setStore x).port p = s.port p) ∧ (∀ p, (s.setStore x).cursor p = s.cursor p) ∧
    (∀ k, (s.setStore x).prompt k = s.prompt k) ∧ (∀ k, (s.setStore x).lamp k = s.lamp k) ∧
    (∀ y, (s.setStore x).key y = s.key y) ∧ (s.setStore x).now = s.now ∧ (s.setStore x).isReady = s.isReady := by
  repeat' apply And.intro
  all_goals first | rfl | (intros; rfl)

/-- What `setPort` leaves unchanged. -/
@[simp] theorem setPort_keeps (s : State) (q : Port) (x : PortRecord) :
    (s.setPort q x).pending = s.pending ∧ (s.setPort q x).draws = s.draws ∧ (s.setPort q x).bindings = s.bindings ∧
    (s.setPort q x).clock = s.clock ∧ (s.setPort q x).loader = s.loader ∧ (s.setPort q x).eeprom = s.eeprom ∧
    (s.setPort q x).pattern = s.pattern ∧ (s.setPort q x).grants = s.grants ∧
    (s.setPort q x).programs = s.programs ∧ (s.setPort q x).channels = s.channels ∧
    (s.setPort q x).limits = s.limits ∧ (s.setPort q x).calibration = s.calibration ∧
    (s.setPort q x).slots = s.slots ∧ (s.setPort q x).inputs = s.inputs ∧ (s.setPort q x).converter = s.converter ∧
    (s.setPort q x).rotation = s.rotation ∧ (s.setPort q x).waitList = s.waitList ∧
    (s.setPort q x).seats = s.seats ∧ (s.setPort q x).panel = s.panel ∧ (∀ k, (s.setPort q x).seat k = s.seat k) ∧
    (∀ k, (s.setPort q x).record k = s.record k) ∧ (∀ k, (s.setPort q x).capture k = s.capture k) ∧
    (∀ k f, (s.setPort q x).frame k f = s.frame k f) ∧ (∀ c, (s.setPort q x).channel c = s.channel c) ∧
    (∀ m, (s.setPort q x).slot m = s.slot m) ∧ (∀ i, (s.setPort q x).program i = s.program i) ∧
    (∀ i, (s.setPort q x).limit i = s.limit i) ∧ (∀ i, (s.setPort q x).cal i = s.cal i) ∧
    (∀ r, (s.setPort q x).grant r = s.grant r) ∧ (∀ p, (s.setPort q x).cursor p = s.cursor p) ∧
    (∀ k, (s.setPort q x).prompt k = s.prompt k) ∧ (∀ k, (s.setPort q x).lamp k = s.lamp k) ∧
    (∀ y, (s.setPort q x).key y = s.key y) ∧ (s.setPort q x).now = s.now ∧ (s.setPort q x).isReady = s.isReady := by
  cases q <;> (repeat' apply And.intro) <;> first | rfl | (intros; rfl)

/-- What `setCursor` leaves unchanged. -/
@[simp] theorem setCursor_keeps (s : State) (q : Port) (x : Cursor) :
    (s.setCursor q x).pending = s.pending ∧ (s.setCursor q x).draws = s.draws ∧
    (s.setCursor q x).bindings = s.bindings ∧ (s.setCursor q x).clock = s.clock ∧
    (s.setCursor q x).loader = s.loader ∧ (s.setCursor q x).eeprom = s.eeprom ∧
    (s.setCursor q x).pattern = s.pattern ∧ (s.setCursor q x).grants = s.grants ∧
    (s.setCursor q x).programs = s.programs ∧ (s.setCursor q x).channels = s.channels ∧
    (s.setCursor q x).limits = s.limits ∧ (s.setCursor q x).calibration = s.calibration ∧
    (s.setCursor q x).slots = s.slots ∧ (s.setCursor q x).inputs = s.inputs ∧
    (s.setCursor q x).converter = s.converter ∧ (s.setCursor q x).rotation = s.rotation ∧
    (s.setCursor q x).waitList = s.waitList ∧ (s.setCursor q x).seats = s.seats ∧
    (s.setCursor q x).portA = s.portA ∧ (s.setCursor q x).portB = s.portB ∧
    (∀ k, (s.setCursor q x).seat k = s.seat k) ∧ (∀ k, (s.setCursor q x).record k = s.record k) ∧
    (∀ k, (s.setCursor q x).capture k = s.capture k) ∧ (∀ k f, (s.setCursor q x).frame k f = s.frame k f) ∧
    (∀ c, (s.setCursor q x).channel c = s.channel c) ∧ (∀ m, (s.setCursor q x).slot m = s.slot m) ∧
    (∀ i, (s.setCursor q x).program i = s.program i) ∧ (∀ i, (s.setCursor q x).limit i = s.limit i) ∧
    (∀ i, (s.setCursor q x).cal i = s.cal i) ∧ (∀ r, (s.setCursor q x).grant r = s.grant r) ∧
    (∀ p, (s.setCursor q x).port p = s.port p) ∧ (∀ k, (s.setCursor q x).prompt k = s.prompt k) ∧
    (∀ k, (s.setCursor q x).lamp k = s.lamp k) ∧ (∀ y, (s.setCursor q x).key y = s.key y) ∧
    (s.setCursor q x).now = s.now ∧ (s.setCursor q x).isReady = s.isReady ∧
    (s.setCursor q x).panel.ram = s.panel.ram ∧ (s.setCursor q x).panel.display = s.panel.display ∧
    (s.setCursor q x).panel.allPoints = s.panel.allPoints ∧ (s.setCursor q x).panel.saver = s.panel.saver ∧
    (s.setCursor q x).panel.lamps = s.panel.lamps ∧ (s.setCursor q x).panel.prompts = s.panel.prompts ∧
    (s.setCursor q x).panel.yesKeys = s.panel.yesKeys ∧ (s.setCursor q x).panel.noKeys = s.panel.noKeys ∧
    (s.setCursor q x).panel.stopKey = s.panel.stopKey := by
  cases q <;> (repeat' apply And.intro) <;> first | rfl | (intros; rfl)

/-- What `setPrompt` leaves unchanged. -/
@[simp] theorem setPrompt_keeps (s : State) (j : Fin 4) (x : PromptRecord) :
    (s.setPrompt j x).pending = s.pending ∧ (s.setPrompt j x).draws = s.draws ∧
    (s.setPrompt j x).bindings = s.bindings ∧ (s.setPrompt j x).clock = s.clock ∧
    (s.setPrompt j x).loader = s.loader ∧ (s.setPrompt j x).eeprom = s.eeprom ∧
    (s.setPrompt j x).pattern = s.pattern ∧ (s.setPrompt j x).grants = s.grants ∧
    (s.setPrompt j x).programs = s.programs ∧ (s.setPrompt j x).channels = s.channels ∧
    (s.setPrompt j x).limits = s.limits ∧ (s.setPrompt j x).calibration = s.calibration ∧
    (s.setPrompt j x).slots = s.slots ∧ (s.setPrompt j x).inputs = s.inputs ∧
    (s.setPrompt j x).converter = s.converter ∧ (s.setPrompt j x).rotation = s.rotation ∧
    (s.setPrompt j x).waitList = s.waitList ∧ (s.setPrompt j x).seats = s.seats ∧
    (s.setPrompt j x).portA = s.portA ∧ (s.setPrompt j x).portB = s.portB ∧
    (∀ k, (s.setPrompt j x).seat k = s.seat k) ∧ (∀ k, (s.setPrompt j x).record k = s.record k) ∧
    (∀ k, (s.setPrompt j x).capture k = s.capture k) ∧ (∀ k f, (s.setPrompt j x).frame k f = s.frame k f) ∧
    (∀ c, (s.setPrompt j x).channel c = s.channel c) ∧ (∀ m, (s.setPrompt j x).slot m = s.slot m) ∧
    (∀ i, (s.setPrompt j x).program i = s.program i) ∧ (∀ i, (s.setPrompt j x).limit i = s.limit i) ∧
    (∀ i, (s.setPrompt j x).cal i = s.cal i) ∧ (∀ r, (s.setPrompt j x).grant r = s.grant r) ∧
    (∀ p, (s.setPrompt j x).port p = s.port p) ∧ (∀ p, (s.setPrompt j x).cursor p = s.cursor p) ∧
    (∀ k, (s.setPrompt j x).lamp k = s.lamp k) ∧ (∀ y, (s.setPrompt j x).key y = s.key y) ∧
    (s.setPrompt j x).now = s.now ∧ (s.setPrompt j x).isReady = s.isReady ∧
    (s.setPrompt j x).panel.ram = s.panel.ram ∧ (s.setPrompt j x).panel.display = s.panel.display ∧
    (s.setPrompt j x).panel.allPoints = s.panel.allPoints ∧ (s.setPrompt j x).panel.saver = s.panel.saver ∧
    (s.setPrompt j x).panel.lamps = s.panel.lamps ∧ (s.setPrompt j x).panel.cursorA = s.panel.cursorA ∧
    (s.setPrompt j x).panel.cursorB = s.panel.cursorB ∧ (s.setPrompt j x).panel.yesKeys = s.panel.yesKeys ∧
    (s.setPrompt j x).panel.noKeys = s.panel.noKeys ∧ (s.setPrompt j x).panel.stopKey = s.panel.stopKey := by
  repeat' apply And.intro
  all_goals first | rfl | (intros; rfl)

/-- What `setLamp` leaves unchanged. -/
@[simp] theorem setLamp_keeps (s : State) (j : Fin 4) (x : Lamp) :
    (s.setLamp j x).pending = s.pending ∧ (s.setLamp j x).draws = s.draws ∧ (s.setLamp j x).bindings = s.bindings ∧
    (s.setLamp j x).clock = s.clock ∧ (s.setLamp j x).loader = s.loader ∧ (s.setLamp j x).eeprom = s.eeprom ∧
    (s.setLamp j x).pattern = s.pattern ∧ (s.setLamp j x).grants = s.grants ∧
    (s.setLamp j x).programs = s.programs ∧ (s.setLamp j x).channels = s.channels ∧
    (s.setLamp j x).limits = s.limits ∧ (s.setLamp j x).calibration = s.calibration ∧
    (s.setLamp j x).slots = s.slots ∧ (s.setLamp j x).inputs = s.inputs ∧ (s.setLamp j x).converter = s.converter ∧
    (s.setLamp j x).rotation = s.rotation ∧ (s.setLamp j x).waitList = s.waitList ∧
    (s.setLamp j x).seats = s.seats ∧ (s.setLamp j x).portA = s.portA ∧ (s.setLamp j x).portB = s.portB ∧
    (∀ k, (s.setLamp j x).seat k = s.seat k) ∧ (∀ k, (s.setLamp j x).record k = s.record k) ∧
    (∀ k, (s.setLamp j x).capture k = s.capture k) ∧ (∀ k f, (s.setLamp j x).frame k f = s.frame k f) ∧
    (∀ c, (s.setLamp j x).channel c = s.channel c) ∧ (∀ m, (s.setLamp j x).slot m = s.slot m) ∧
    (∀ i, (s.setLamp j x).program i = s.program i) ∧ (∀ i, (s.setLamp j x).limit i = s.limit i) ∧
    (∀ i, (s.setLamp j x).cal i = s.cal i) ∧ (∀ r, (s.setLamp j x).grant r = s.grant r) ∧
    (∀ p, (s.setLamp j x).port p = s.port p) ∧ (∀ p, (s.setLamp j x).cursor p = s.cursor p) ∧
    (∀ k, (s.setLamp j x).prompt k = s.prompt k) ∧ (∀ y, (s.setLamp j x).key y = s.key y) ∧
    (s.setLamp j x).now = s.now ∧ (s.setLamp j x).isReady = s.isReady ∧ (s.setLamp j x).panel.ram = s.panel.ram ∧
    (s.setLamp j x).panel.display = s.panel.display ∧ (s.setLamp j x).panel.allPoints = s.panel.allPoints ∧
    (s.setLamp j x).panel.saver = s.panel.saver ∧ (s.setLamp j x).panel.prompts = s.panel.prompts ∧
    (s.setLamp j x).panel.cursorA = s.panel.cursorA ∧ (s.setLamp j x).panel.cursorB = s.panel.cursorB ∧
    (s.setLamp j x).panel.yesKeys = s.panel.yesKeys ∧ (s.setLamp j x).panel.noKeys = s.panel.noKeys ∧
    (s.setLamp j x).panel.stopKey = s.panel.stopKey := by
  repeat' apply And.intro
  all_goals first | rfl | (intros; rfl)

/-- What `setKey` leaves unchanged. -/
@[simp] theorem setKey_keeps (s : State) (z : Key) (x : Debounce) :
    (s.setKey z x).pending = s.pending ∧ (s.setKey z x).draws = s.draws ∧ (s.setKey z x).bindings = s.bindings ∧
    (s.setKey z x).clock = s.clock ∧ (s.setKey z x).loader = s.loader ∧ (s.setKey z x).eeprom = s.eeprom ∧
    (s.setKey z x).pattern = s.pattern ∧ (s.setKey z x).grants = s.grants ∧ (s.setKey z x).programs = s.programs ∧
    (s.setKey z x).channels = s.channels ∧ (s.setKey z x).limits = s.limits ∧
    (s.setKey z x).calibration = s.calibration ∧ (s.setKey z x).slots = s.slots ∧
    (s.setKey z x).inputs = s.inputs ∧ (s.setKey z x).converter = s.converter ∧
    (s.setKey z x).rotation = s.rotation ∧ (s.setKey z x).waitList = s.waitList ∧ (s.setKey z x).seats = s.seats ∧
    (s.setKey z x).portA = s.portA ∧ (s.setKey z x).portB = s.portB ∧ (∀ k, (s.setKey z x).seat k = s.seat k) ∧
    (∀ k, (s.setKey z x).record k = s.record k) ∧ (∀ k, (s.setKey z x).capture k = s.capture k) ∧
    (∀ k f, (s.setKey z x).frame k f = s.frame k f) ∧ (∀ c, (s.setKey z x).channel c = s.channel c) ∧
    (∀ m, (s.setKey z x).slot m = s.slot m) ∧ (∀ i, (s.setKey z x).program i = s.program i) ∧
    (∀ i, (s.setKey z x).limit i = s.limit i) ∧ (∀ i, (s.setKey z x).cal i = s.cal i) ∧
    (∀ r, (s.setKey z x).grant r = s.grant r) ∧ (∀ p, (s.setKey z x).port p = s.port p) ∧
    (∀ p, (s.setKey z x).cursor p = s.cursor p) ∧ (∀ k, (s.setKey z x).prompt k = s.prompt k) ∧
    (∀ k, (s.setKey z x).lamp k = s.lamp k) ∧ (s.setKey z x).now = s.now ∧ (s.setKey z x).isReady = s.isReady ∧
    (s.setKey z x).panel.ram = s.panel.ram ∧ (s.setKey z x).panel.display = s.panel.display ∧
    (s.setKey z x).panel.allPoints = s.panel.allPoints ∧ (s.setKey z x).panel.saver = s.panel.saver ∧
    (s.setKey z x).panel.lamps = s.panel.lamps ∧ (s.setKey z x).panel.prompts = s.panel.prompts ∧
    (s.setKey z x).panel.cursorA = s.panel.cursorA ∧ (s.setKey z x).panel.cursorB = s.panel.cursorB := by
  rcases z with ⟨_, _ | _⟩ | _ <;> (repeat' apply And.intro) <;> first | rfl | (intros; rfl)

/-- What `setRam` leaves unchanged. -/
@[simp] theorem setRam_keeps (s : State) (x : Memory 8) :
    (s.setRam x).pending = s.pending ∧ (s.setRam x).draws = s.draws ∧ (s.setRam x).bindings = s.bindings ∧
    (s.setRam x).clock = s.clock ∧ (s.setRam x).loader = s.loader ∧ (s.setRam x).eeprom = s.eeprom ∧
    (s.setRam x).pattern = s.pattern ∧ (s.setRam x).grants = s.grants ∧ (s.setRam x).programs = s.programs ∧
    (s.setRam x).channels = s.channels ∧ (s.setRam x).limits = s.limits ∧
    (s.setRam x).calibration = s.calibration ∧ (s.setRam x).slots = s.slots ∧ (s.setRam x).inputs = s.inputs ∧
    (s.setRam x).converter = s.converter ∧ (s.setRam x).rotation = s.rotation ∧
    (s.setRam x).waitList = s.waitList ∧ (s.setRam x).seats = s.seats ∧ (s.setRam x).portA = s.portA ∧
    (s.setRam x).portB = s.portB ∧ (∀ k, (s.setRam x).seat k = s.seat k) ∧
    (∀ k, (s.setRam x).record k = s.record k) ∧ (∀ k, (s.setRam x).capture k = s.capture k) ∧
    (∀ k f, (s.setRam x).frame k f = s.frame k f) ∧ (∀ c, (s.setRam x).channel c = s.channel c) ∧
    (∀ m, (s.setRam x).slot m = s.slot m) ∧ (∀ i, (s.setRam x).program i = s.program i) ∧
    (∀ i, (s.setRam x).limit i = s.limit i) ∧ (∀ i, (s.setRam x).cal i = s.cal i) ∧
    (∀ r, (s.setRam x).grant r = s.grant r) ∧ (∀ p, (s.setRam x).port p = s.port p) ∧
    (∀ p, (s.setRam x).cursor p = s.cursor p) ∧ (∀ k, (s.setRam x).prompt k = s.prompt k) ∧
    (∀ k, (s.setRam x).lamp k = s.lamp k) ∧ (∀ y, (s.setRam x).key y = s.key y) ∧ (s.setRam x).now = s.now ∧
    (s.setRam x).isReady = s.isReady ∧ (s.setRam x).panel.display = s.panel.display ∧
    (s.setRam x).panel.allPoints = s.panel.allPoints ∧ (s.setRam x).panel.saver = s.panel.saver ∧
    (s.setRam x).panel.lamps = s.panel.lamps ∧ (s.setRam x).panel.prompts = s.panel.prompts ∧
    (s.setRam x).panel.cursorA = s.panel.cursorA ∧ (s.setRam x).panel.cursorB = s.panel.cursorB ∧
    (s.setRam x).panel.yesKeys = s.panel.yesKeys ∧ (s.setRam x).panel.noKeys = s.panel.noKeys ∧
    (s.setRam x).panel.stopKey = s.panel.stopKey := by
  repeat' apply And.intro
  all_goals first | rfl | (intros; rfl)

/-! ### What is written reads back -/

/-- Seat `j` reads as it was set, and the others as before. -/
theorem seat_setSeat (s : State) (j k : Fin 4) (x : Seat) :
    (s.setSeat j x).seat k = if k = j then x else s.seat k := by
  unfold State.seat State.setSeat
  by_cases h : k = j
  · subst h; simp
  · simp only [if_neg h, Fin.getElem_fin]
    rw [Vector.getElem_set_ne]
    intro e; exact h (Fin.ext e.symm)

@[simp] theorem seat_setSeat_same (s : State) (j : Fin 4) (x : Seat) : (s.setSeat j x).seat j = x := by
  simp [seat_setSeat]

theorem seat_setSeat_other (s : State) (j k : Fin 4) (x : Seat) (h : k ≠ j) :
    (s.setSeat j x).seat k = s.seat k := by
  simp [seat_setSeat, h]

@[simp] theorem seat_setRecord_same (s : State) (j : Fin 4) (x : SeatRecord) :
    (s.setRecord j x).seat j = { s.seat j with record := x } := by
  simp [State.setRecord]

@[simp] theorem seat_setRecord_other (s : State) (j k : Fin 4) (x : SeatRecord) (h : k ≠ j) :
    (s.setRecord j x).seat k = s.seat k := by
  simp [State.setRecord, seat_setSeat, h]

/-- The parts of a seat that `setRecord` leaves unchanged. -/
@[simp] theorem setRecord_parts (s : State) (j k : Fin 4) (x : SeatRecord) :
    ((s.setRecord j x).seat k).queue = (s.seat k).queue ∧ ((s.setRecord j x).seat k).running = (s.seat k).running ∧
    ((s.setRecord j x).seat k).outputs = (s.seat k).outputs ∧
    ((s.setRecord j x).seat k).frames = (s.seat k).frames ∧ ((s.setRecord j x).seat k).link = (s.seat k).link ∧
    ((s.setRecord j x).seat k).capture = (s.seat k).capture ∧
    ((s.setRecord j x).seat k).results = (s.seat k).results ∧ (s.setRecord j x).capture k = s.capture k ∧
    (∀ f, (s.setRecord j x).frame k f = s.frame k f) := by
  by_cases h : k = j
  · subst h; simp [State.capture, State.frame]
  · simp [State.capture, State.frame, h]

@[simp] theorem seat_setQueue_same (s : State) (j : Fin 4) (x : List Step) :
    (s.setQueue j x).seat j = { s.seat j with queue := x } := by
  simp [State.setQueue]

@[simp] theorem seat_setQueue_other (s : State) (j k : Fin 4) (x : List Step) (h : k ≠ j) :
    (s.setQueue j x).seat k = s.seat k := by
  simp [State.setQueue, seat_setSeat, h]

/-- The parts of a seat that `setQueue` leaves unchanged. -/
@[simp] theorem setQueue_parts (s : State) (j k : Fin 4) (x : List Step) :
    ((s.setQueue j x).seat k).record = (s.seat k).record ∧ ((s.setQueue j x).seat k).running = (s.seat k).running ∧
    ((s.setQueue j x).seat k).outputs = (s.seat k).outputs ∧ ((s.setQueue j x).seat k).frames = (s.seat k).frames ∧
    ((s.setQueue j x).seat k).link = (s.seat k).link ∧ ((s.setQueue j x).seat k).capture = (s.seat k).capture ∧
    ((s.setQueue j x).seat k).results = (s.seat k).results ∧ (s.setQueue j x).record k = s.record k ∧
    (s.setQueue j x).capture k = s.capture k ∧ (∀ f, (s.setQueue j x).frame k f = s.frame k f) := by
  by_cases h : k = j
  · subst h; simp [State.record, State.capture, State.frame]
  · simp [State.record, State.capture, State.frame, h]

@[simp] theorem seat_setRunning_same (s : State) (j : Fin 4) (x : Option Running) :
    (s.setRunning j x).seat j = { s.seat j with running := x } := by
  simp [State.setRunning]

@[simp] theorem seat_setRunning_other (s : State) (j k : Fin 4) (x : Option Running) (h : k ≠ j) :
    (s.setRunning j x).seat k = s.seat k := by
  simp [State.setRunning, seat_setSeat, h]

/-- The parts of a seat that `setRunning` leaves unchanged. -/
@[simp] theorem setRunning_parts (s : State) (j k : Fin 4) (x : Option Running) :
    ((s.setRunning j x).seat k).record = (s.seat k).record ∧ ((s.setRunning j x).seat k).queue = (s.seat k).queue ∧
    ((s.setRunning j x).seat k).outputs = (s.seat k).outputs ∧
    ((s.setRunning j x).seat k).frames = (s.seat k).frames ∧ ((s.setRunning j x).seat k).link = (s.seat k).link ∧
    ((s.setRunning j x).seat k).capture = (s.seat k).capture ∧
    ((s.setRunning j x).seat k).results = (s.seat k).results ∧ (s.setRunning j x).record k = s.record k ∧
    (s.setRunning j x).capture k = s.capture k ∧ (∀ f, (s.setRunning j x).frame k f = s.frame k f) := by
  by_cases h : k = j
  · subst h; simp [State.record, State.capture, State.frame]
  · simp [State.record, State.capture, State.frame, h]

@[simp] theorem seat_setOutputs_same (s : State) (j : Fin 4) (x : Outputs) :
    (s.setOutputs j x).seat j = { s.seat j with outputs := x } := by
  simp [State.setOutputs]

@[simp] theorem seat_setOutputs_other (s : State) (j k : Fin 4) (x : Outputs) (h : k ≠ j) :
    (s.setOutputs j x).seat k = s.seat k := by
  simp [State.setOutputs, seat_setSeat, h]

/-- The parts of a seat that `setOutputs` leaves unchanged. -/
@[simp] theorem setOutputs_parts (s : State) (j k : Fin 4) (x : Outputs) :
    ((s.setOutputs j x).seat k).record = (s.seat k).record ∧ ((s.setOutputs j x).seat k).queue = (s.seat k).queue ∧
    ((s.setOutputs j x).seat k).running = (s.seat k).running ∧
    ((s.setOutputs j x).seat k).frames = (s.seat k).frames ∧ ((s.setOutputs j x).seat k).link = (s.seat k).link ∧
    ((s.setOutputs j x).seat k).capture = (s.seat k).capture ∧
    ((s.setOutputs j x).seat k).results = (s.seat k).results ∧ (s.setOutputs j x).record k = s.record k ∧
    (s.setOutputs j x).capture k = s.capture k ∧ (∀ f, (s.setOutputs j x).frame k f = s.frame k f) := by
  by_cases h : k = j
  · subst h; simp [State.record, State.capture, State.frame]
  · simp [State.record, State.capture, State.frame, h]

@[simp] theorem seat_setFrame_same (s : State) (j : Fin 4) (g : Fin 8) (x : FrameSlot) :
    (s.setFrame j g x).seat j = { s.seat j with frames := (s.seat j).frames.set g x } := by
  simp [State.setFrame]

@[simp] theorem seat_setFrame_other (s : State) (j k : Fin 4) (g : Fin 8) (x : FrameSlot) (h : k ≠ j) :
    (s.setFrame j g x).seat k = s.seat k := by
  simp [State.setFrame, seat_setSeat, h]

/-- The parts of a seat that `setFrame` leaves unchanged. -/
@[simp] theorem setFrame_parts (s : State) (j k : Fin 4) (g : Fin 8) (x : FrameSlot) :
    ((s.setFrame j g x).seat k).record = (s.seat k).record ∧ ((s.setFrame j g x).seat k).queue = (s.seat k).queue ∧
    ((s.setFrame j g x).seat k).running = (s.seat k).running ∧
    ((s.setFrame j g x).seat k).outputs = (s.seat k).outputs ∧ ((s.setFrame j g x).seat k).link = (s.seat k).link ∧
    ((s.setFrame j g x).seat k).capture = (s.seat k).capture ∧
    ((s.setFrame j g x).seat k).results = (s.seat k).results ∧ (s.setFrame j g x).record k = s.record k ∧
    (s.setFrame j g x).capture k = s.capture k := by
  by_cases h : k = j
  · subst h; simp [State.record, State.capture]
  · simp [State.record, State.capture, h]

@[simp] theorem seat_setLink_same (s : State) (j : Fin 4) (x : FrameLink) :
    (s.setLink j x).seat j = { s.seat j with link := x } := by
  simp [State.setLink]

@[simp] theorem seat_setLink_other (s : State) (j k : Fin 4) (x : FrameLink) (h : k ≠ j) :
    (s.setLink j x).seat k = s.seat k := by
  simp [State.setLink, seat_setSeat, h]

/-- The parts of a seat that `setLink` leaves unchanged. -/
@[simp] theorem setLink_parts (s : State) (j k : Fin 4) (x : FrameLink) :
    ((s.setLink j x).seat k).record = (s.seat k).record ∧ ((s.setLink j x).seat k).queue = (s.seat k).queue ∧
    ((s.setLink j x).seat k).running = (s.seat k).running ∧ ((s.setLink j x).seat k).outputs = (s.seat k).outputs ∧
    ((s.setLink j x).seat k).frames = (s.seat k).frames ∧ ((s.setLink j x).seat k).capture = (s.seat k).capture ∧
    ((s.setLink j x).seat k).results = (s.seat k).results ∧ (s.setLink j x).record k = s.record k ∧
    (s.setLink j x).capture k = s.capture k ∧ (∀ f, (s.setLink j x).frame k f = s.frame k f) := by
  by_cases h : k = j
  · subst h; simp [State.record, State.capture, State.frame]
  · simp [State.record, State.capture, State.frame, h]

@[simp] theorem seat_setCapture_same (s : State) (j : Fin 4) (x : Capture) :
    (s.setCapture j x).seat j = { s.seat j with capture := x } := by
  simp [State.setCapture]

@[simp] theorem seat_setCapture_other (s : State) (j k : Fin 4) (x : Capture) (h : k ≠ j) :
    (s.setCapture j x).seat k = s.seat k := by
  simp [State.setCapture, seat_setSeat, h]

/-- The parts of a seat that `setCapture` leaves unchanged. -/
@[simp] theorem setCapture_parts (s : State) (j k : Fin 4) (x : Capture) :
    ((s.setCapture j x).seat k).record = (s.seat k).record ∧ ((s.setCapture j x).seat k).queue = (s.seat k).queue ∧
    ((s.setCapture j x).seat k).running = (s.seat k).running ∧
    ((s.setCapture j x).seat k).outputs = (s.seat k).outputs ∧
    ((s.setCapture j x).seat k).frames = (s.seat k).frames ∧ ((s.setCapture j x).seat k).link = (s.seat k).link ∧
    ((s.setCapture j x).seat k).results = (s.seat k).results ∧ (s.setCapture j x).record k = s.record k ∧
    (∀ f, (s.setCapture j x).frame k f = s.frame k f) := by
  by_cases h : k = j
  · subst h; simp [State.record, State.frame]
  · simp [State.record, State.frame, h]

@[simp] theorem seat_setResults_same (s : State) (j : Fin 4) (x : ResultStore) :
    (s.setResults j x).seat j = { s.seat j with results := x } := by
  simp [State.setResults]

@[simp] theorem seat_setResults_other (s : State) (j k : Fin 4) (x : ResultStore) (h : k ≠ j) :
    (s.setResults j x).seat k = s.seat k := by
  simp [State.setResults, seat_setSeat, h]

/-- The parts of a seat that `setResults` leaves unchanged. -/
@[simp] theorem setResults_parts (s : State) (j k : Fin 4) (x : ResultStore) :
    ((s.setResults j x).seat k).record = (s.seat k).record ∧ ((s.setResults j x).seat k).queue = (s.seat k).queue ∧
    ((s.setResults j x).seat k).running = (s.seat k).running ∧
    ((s.setResults j x).seat k).outputs = (s.seat k).outputs ∧
    ((s.setResults j x).seat k).frames = (s.seat k).frames ∧ ((s.setResults j x).seat k).link = (s.seat k).link ∧
    ((s.setResults j x).seat k).capture = (s.seat k).capture ∧ (s.setResults j x).record k = s.record k ∧
    (s.setResults j x).capture k = s.capture k ∧ (∀ f, (s.setResults j x).frame k f = s.frame k f) := by
  by_cases h : k = j
  · subst h; simp [State.record, State.capture, State.frame]
  · simp [State.record, State.capture, State.frame, h]

theorem channel_setChannel (s : State) (j k : Fin 8) (x : Channel) :
    (s.setChannel j x).channel k = if k = j then x else s.channel k := by
  unfold State.channel State.setChannel
  by_cases h : k = j
  · subst h; simp
  · simp only [if_neg h, Fin.getElem_fin]
    rw [Vector.getElem_set_ne]
    intro e; exact h (Fin.ext e.symm)

@[simp] theorem channel_setChannel_same (s : State) (j : Fin 8) (x : Channel) : (s.setChannel j x).channel j = x := by
  simp [channel_setChannel]

@[simp] theorem channel_setChannel_other (s : State) (j k : Fin 8) (x : Channel) (h : k ≠ j) :
    (s.setChannel j x).channel k = s.channel k := by
  simp [channel_setChannel, h]

theorem slot_setSlot (s : State) (j k : Fin 6) (x : MeasSlot) :
    (s.setSlot j x).slot k = if k = j then x else s.slot k := by
  unfold State.slot State.setSlot
  by_cases h : k = j
  · subst h; simp
  · simp only [if_neg h, Fin.getElem_fin]
    rw [Vector.getElem_set_ne]
    intro e; exact h (Fin.ext e.symm)

@[simp] theorem slot_setSlot_same (s : State) (j : Fin 6) (x : MeasSlot) : (s.setSlot j x).slot j = x := by
  simp [slot_setSlot]

@[simp] theorem slot_setSlot_other (s : State) (j k : Fin 6) (x : MeasSlot) (h : k ≠ j) :
    (s.setSlot j x).slot k = s.slot k := by
  simp [slot_setSlot, h]

theorem program_setProgram (s : State) (j k : Fin 48) (x : ProgramEntry) :
    (s.setProgram j x).program k = if k = j then x else s.program k := by
  unfold State.program State.setProgram
  by_cases h : k = j
  · subst h; simp
  · simp only [if_neg h, Fin.getElem_fin]
    rw [Vector.getElem_set_ne]
    intro e; exact h (Fin.ext e.symm)

@[simp] theorem program_setProgram_same (s : State) (j : Fin 48) (x : ProgramEntry) : (s.setProgram j x).program j = x := by
  simp [program_setProgram]

@[simp] theorem program_setProgram_other (s : State) (j k : Fin 48) (x : ProgramEntry) (h : k ≠ j) :
    (s.setProgram j x).program k = s.program k := by
  simp [program_setProgram, h]

theorem limit_setLimit (s : State) (j k : Fin 256) (x : LimitEntry) :
    (s.setLimit j x).limit k = if k = j then x else s.limit k := by
  unfold State.limit State.setLimit
  by_cases h : k = j
  · subst h; simp
  · simp only [if_neg h, Fin.getElem_fin]
    rw [Vector.getElem_set_ne]
    intro e; exact h (Fin.ext e.symm)

@[simp] theorem limit_setLimit_same (s : State) (j : Fin 256) (x : LimitEntry) : (s.setLimit j x).limit j = x := by
  simp [limit_setLimit]

@[simp] theorem limit_setLimit_other (s : State) (j k : Fin 256) (x : LimitEntry) (h : k ≠ j) :
    (s.setLimit j x).limit k = s.limit k := by
  simp [limit_setLimit, h]

theorem grant_setGrant (s : State) (j k : Fin 32) (x : Grant) :
    (s.setGrant j x).grant k = if k = j then x else s.grant k := by
  unfold State.grant State.setGrant
  by_cases h : k = j
  · subst h; simp
  · simp only [if_neg h, Fin.getElem_fin]
    rw [Vector.getElem_set_ne]
    intro e; exact h (Fin.ext e.symm)

@[simp] theorem grant_setGrant_same (s : State) (j : Fin 32) (x : Grant) : (s.setGrant j x).grant j = x := by
  simp [grant_setGrant]

@[simp] theorem grant_setGrant_other (s : State) (j k : Fin 32) (x : Grant) (h : k ≠ j) :
    (s.setGrant j x).grant k = s.grant k := by
  simp [grant_setGrant, h]

theorem cal_setCal (s : State) (j k : Fin 32) (x : CalEntry) :
    (s.setCal j x).cal k = if k = j then x else s.cal k := by
  unfold State.cal State.setCal
  by_cases h : k = j
  · subst h; simp
  · simp only [if_neg h, Fin.getElem_fin]
    rw [Vector.getElem_set_ne]
    intro e; exact h (Fin.ext e.symm)

@[simp] theorem cal_setCal_same (s : State) (j : Fin 32) (x : CalEntry) : (s.setCal j x).cal j = x := by
  simp [cal_setCal]

@[simp] theorem cal_setCal_other (s : State) (j k : Fin 32) (x : CalEntry) (h : k ≠ j) :
    (s.setCal j x).cal k = s.cal k := by
  simp [cal_setCal, h]

theorem prompt_setPrompt (s : State) (j k : Fin 4) (x : PromptRecord) :
    (s.setPrompt j x).prompt k = if k = j then x else s.prompt k := by
  unfold State.prompt State.setPrompt
  by_cases h : k = j
  · subst h; simp
  · simp only [if_neg h, Fin.getElem_fin]
    rw [Vector.getElem_set_ne]
    intro e; exact h (Fin.ext e.symm)

@[simp] theorem prompt_setPrompt_same (s : State) (j : Fin 4) (x : PromptRecord) : (s.setPrompt j x).prompt j = x := by
  simp [prompt_setPrompt]

@[simp] theorem prompt_setPrompt_other (s : State) (j k : Fin 4) (x : PromptRecord) (h : k ≠ j) :
    (s.setPrompt j x).prompt k = s.prompt k := by
  simp [prompt_setPrompt, h]

theorem lamp_setLamp (s : State) (j k : Fin 4) (x : Lamp) :
    (s.setLamp j x).lamp k = if k = j then x else s.lamp k := by
  unfold State.lamp State.setLamp
  by_cases h : k = j
  · subst h; simp
  · simp only [if_neg h, Fin.getElem_fin]
    rw [Vector.getElem_set_ne]
    intro e; exact h (Fin.ext e.symm)

@[simp] theorem lamp_setLamp_same (s : State) (j : Fin 4) (x : Lamp) : (s.setLamp j x).lamp j = x := by
  simp [lamp_setLamp]

@[simp] theorem lamp_setLamp_other (s : State) (j k : Fin 4) (x : Lamp) (h : k ≠ j) :
    (s.setLamp j x).lamp k = s.lamp k := by
  simp [lamp_setLamp, h]

@[simp] theorem record_setRecord_same (s : State) (j : Fin 4) (x : SeatRecord) : (s.setRecord j x).record j = x := by
  simp [State.record]

@[simp] theorem record_setRecord_other (s : State) (j k : Fin 4) (x : SeatRecord) (h : k ≠ j) :
    (s.setRecord j x).record k = s.record k := by
  simp [State.record, h]

@[simp] theorem record_setSeat (s : State) (j : Fin 4) (x : Seat) : (s.setSeat j x).record j = x.record := by
  simp [State.record]

@[simp] theorem capture_setCapture_same (s : State) (j : Fin 4) (x : Capture) : (s.setCapture j x).capture j = x := by
  simp [State.capture]

@[simp] theorem capture_setCapture_other (s : State) (j k : Fin 4) (x : Capture) (h : k ≠ j) :
    (s.setCapture j x).capture k = s.capture k := by
  simp [State.capture, h]

theorem frame_setFrame (s : State) (j : Fin 4) (g f : Fin 8) (x : FrameSlot) :
    (s.setFrame j g x).frame j f = if f = g then x else s.frame j f := by
  unfold State.frame
  simp only [seat_setFrame_same]
  by_cases h : f = g
  · subst h; simp
  · simp only [if_neg h, Fin.getElem_fin]
    rw [Vector.getElem_set_ne]
    intro e; exact h (Fin.ext e.symm)

@[simp] theorem frame_setFrame_same (s : State) (j : Fin 4) (g : Fin 8) (x : FrameSlot) :
    (s.setFrame j g x).frame j g = x := by
  simp [frame_setFrame]

@[simp] theorem frame_setFrame_other (s : State) (j : Fin 4) (g f : Fin 8) (x : FrameSlot) (h : f ≠ g) :
    (s.setFrame j g x).frame j f = s.frame j f := by
  simp [frame_setFrame, h]

@[simp] theorem port_setPort_same (s : State) (p : Port) (x : PortRecord) : (s.setPort p x).port p = x := by
  cases p <;> rfl

@[simp] theorem port_setPort_other (s : State) (p q : Port) (x : PortRecord) (h : q ≠ p) :
    (s.setPort p x).port q = s.port q := by
  cases p <;> cases q <;> first | rfl | exact absurd rfl h

@[simp] theorem cursor_setCursor_same (s : State) (p : Port) (x : Cursor) : (s.setCursor p x).cursor p = x := by
  cases p <;> rfl

@[simp] theorem cursor_setCursor_other (s : State) (p q : Port) (x : Cursor) (h : q ≠ p) :
    (s.setCursor p x).cursor q = s.cursor q := by
  cases p <;> cases q <;> first | rfl | exact absurd rfl h

@[simp] theorem ram_setRam (s : State) (m : Memory 8) : (s.setRam m).panel.ram = m := rfl

@[simp] theorem store_setStore (s : State) (x : Option StoreOp) : (s.setStore x).loader.store = x := rfl

@[simp] theorem key_setKey_same (s : State) (y : Key) (d : Debounce) : (s.setKey y d).key y = d := by
  rcases y with ⟨k, _ | _⟩ | _ <;> simp [State.setKey, State.key]

/-! ### The seat's parts as they were set -/

@[simp] theorem queue_setQueue (s : State) (j : Fin 4) (q : List Step) : ((s.setQueue j q).seat j).queue = q := by simp

/-- Two updates of one seat's record are one. -/
@[simp] theorem setSeat_setSeat (s : State) (j : Fin 4) (x y : Seat) : (s.setSeat j x).setSeat j y = s.setSeat j y := by
  simp [State.setSeat]

/-- Setting a seat to what it is changes nothing. -/
@[simp] theorem setSeat_self (s : State) (j : Fin 4) : s.setSeat j (s.seat j) = s := by
  simp [State.setSeat, State.seat]

end Machine
end Sys2Proof
end

