-- ==== Sys2Proof/Laws/Memory.lean ====
section
/-! SUPPORT. The memories: what a read gives after a write, and that every memory operation keeps the canonical
form. -/

namespace Sys2Proof
namespace Machine

variable {w : Nat}

@[simp] theorem Memory.read_nil (a : Nat) : Memory.read ([] : Memory w) a = 0#w := rfl

/-- Every listed address lies above `a`. -/
def Memory.above (m : Memory w) (a : Nat) : Prop := ∀ c ∈ m, a < c.1

theorem Memory.read_of_above {m : Memory w} {a : Nat} (h : Memory.above m a) : Memory.read m a = 0#w := by
  induction m with
  | nil => rfl
  | cons c rest ih =>
    have hc : a < c.1 := h c (by simp)
    simp only [Memory.read]
    rw [if_neg (by omega)]
    exact ih (fun x hx => h x (by simp [hx]))

theorem Memory.above_of_wf {c : Nat × BitVec w} {m : Memory w} (h : Memory.wf (c :: m)) : Memory.above m c.1 :=
  fun x hx => (List.pairwise_cons.mp h.1).1 x hx

theorem Memory.wf_tail {c : Nat × BitVec w} {m : Memory w} (h : Memory.wf (c :: m)) : Memory.wf m :=
  ⟨(List.pairwise_cons.mp h.1).2, fun x hx => h.2 x (by simp [hx])⟩

theorem Memory.wf_nil : Memory.wf ([] : Memory w) := ⟨List.Pairwise.nil, by simp⟩

theorem Memory.wf_cons {m : Memory w} {a : Nat} {v : BitVec w} (hm : Memory.wf m) (ha : Memory.above m a) :
    Memory.wf (Memory.cons a v m) := by
  unfold Memory.cons
  split
  · exact hm
  · next hv =>
    refine ⟨List.pairwise_cons.mpr ⟨fun x hx => ha x hx, hm.1⟩, fun x hx => ?_⟩
    rcases List.mem_cons.mp hx with rfl | hx
    · exact hv
    · exact hm.2 x hx

theorem Memory.read_cons {m : Memory w} {a : Nat} {v : BitVec w} (ha : Memory.above m a) (b : Nat) :
    Memory.read (Memory.cons a v m) b = if b = a then v else Memory.read m b := by
  unfold Memory.cons
  by_cases hv : v = 0#w
  · simp only [if_pos hv]
    by_cases hb : b = a
    · subst hb; simp [Memory.read_of_above ha, hv]
    · simp [hb]
  · simp only [if_neg hv, Memory.read]
    by_cases hb : a = b
    · simp [hb]
    · simp [hb, Ne.symm hb]

/-- The listed addresses after a write are old ones or the one written. -/
theorem Memory.mem_write {m : Memory w} {a : Nat} {v : BitVec w} {c : Nat × BitVec w}
    (h : c ∈ Memory.write m a v) : c ∈ m ∨ c.1 = a := by
  induction m with
  | nil =>
    simp only [Memory.write, Memory.cons] at h
    split at h
    · exact Or.inl h
    · simp at h; exact Or.inr (by rw [h])
  | cons x rest ih =>
    simp only [Memory.write, Memory.cons] at h
    split at h
    · split at h
      · exact Or.inl h
      · rcases List.mem_cons.mp h with rfl | h
        · exact Or.inr rfl
        · exact Or.inl h
    · split at h
      · split at h
        · exact Or.inl (by simp [h])
        · rcases List.mem_cons.mp h with rfl | h
          · exact Or.inr rfl
          · exact Or.inl (by simp [h])
      · rcases List.mem_cons.mp h with rfl | h
        · exact Or.inl (by simp)
        · rcases ih h with h | h
          · exact Or.inl (by simp [h])
          · exact Or.inr h

/-- A write keeps the canonical form. -/
theorem Memory.wf_write {m : Memory w} (hm : Memory.wf m) (a : Nat) (v : BitVec w) : Memory.wf (Memory.write m a v) := by
  induction m with
  | nil => exact Memory.wf_cons Memory.wf_nil (fun x hx => absurd hx (by simp))
  | cons c rest ih =>
    obtain ⟨b, x⟩ := c
    have hb := Memory.above_of_wf hm
    simp only [Memory.write]
    split
    · next hab =>
      refine Memory.wf_cons hm (fun y hy => ?_)
      rcases List.mem_cons.mp hy with rfl | hy
      · exact hab
      · exact lt_trans hab (hb y hy)
    · split
      · next hab =>
        subst hab
        exact Memory.wf_cons (Memory.wf_tail hm) hb
      · next h1 h2 =>
        have ht := ih (Memory.wf_tail hm)
        refine ⟨List.pairwise_cons.mpr ⟨fun y hy => ?_, ht.1⟩, fun y hy => ?_⟩
        · rcases Memory.mem_write hy with hy | hy
          · exact hb y hy
          · rw [hy]; show b < a; omega
        · rcases List.mem_cons.mp hy with rfl | hy
          · exact hm.2 _ (by simp)
          · exact ht.2 y hy

/-- What a read gives after a write. -/
theorem Memory.read_write {m : Memory w} (hm : Memory.wf m) (a b : Nat) (v : BitVec w) :
    Memory.read (Memory.write m a v) b = if b = a then v else Memory.read m b := by
  induction m with
  | nil => exact Memory.read_cons (fun x hx => absurd hx (by simp)) b
  | cons c rest ih =>
    obtain ⟨x, y⟩ := c
    have hx := Memory.above_of_wf hm
    simp only [Memory.write]
    split
    · next hab =>
      refine Memory.read_cons (fun z hz => ?_) b
      rcases List.mem_cons.mp hz with rfl | hz
      · exact hab
      · exact lt_trans hab (hx z hz)
    · split
      · next hab =>
        subst hab
        rw [Memory.read_cons hx]
        by_cases hb : b = a
        · simp [hb]
        · simp [hb, Memory.read, Ne.symm hb]
      · next h1 h2 =>
        simp only [Memory.read, ih (Memory.wf_tail hm)]
        by_cases hb : b = a
        · subst hb; simp [Ne.symm h2]
        · simp [hb]

/-- Writing a span keeps the canonical form. -/
theorem Memory.wf_writeSpan {m : Memory w} (hm : Memory.wf m) (a : Nat) (vs : List (BitVec w)) :
    Memory.wf (Memory.writeSpan m a vs) := by
  induction vs generalizing m a with
  | nil => exact hm
  | cons v vs ih => exact ih (Memory.wf_write hm a v) (a + 1)

/-- What a read gives after a span was written. -/
theorem Memory.read_writeSpan {m : Memory w} (hm : Memory.wf m) (a b : Nat) (vs : List (BitVec w)) :
    Memory.read (Memory.writeSpan m a vs) b =
      if h : a ≤ b ∧ b - a < vs.length then vs[b - a]'h.2 else Memory.read m b := by
  induction vs generalizing m a with
  | nil => simp [Memory.writeSpan]
  | cons v vs ih =>
    simp only [Memory.writeSpan]
    rw [ih (Memory.wf_write hm a v), Memory.read_write hm]
    by_cases hb : b = a
    · subst hb; simp
    · by_cases hlt : a ≤ b
      · have e : b - a = (b - (a + 1)) + 1 := by omega
        by_cases hl : b - (a + 1) < vs.length
        · rw [dif_pos ⟨by omega, hl⟩, dif_pos ⟨hlt, by simp; omega⟩]
          simp only [e, List.getElem_cons_succ]
        · rw [dif_neg (by omega), dif_neg (by simp; omega), if_neg hb]
      · rw [dif_neg (by omega), dif_neg (by omega), if_neg hb]

@[simp] theorem Memory.length_readSpan (m : Memory w) (a n : Nat) : (Memory.readSpan m a n).length = n := by
  induction n generalizing a with
  | zero => rfl
  | succ n ih => simp [Memory.readSpan, ih]

/-- The elements of a span read. -/
theorem Memory.getElem_readSpan (m : Memory w) (a n i : Nat) (h : i < (Memory.readSpan m a n).length) :
    (Memory.readSpan m a n)[i] = Memory.read m (a + i) := by
  induction n generalizing a i with
  | zero => simp [Memory.readSpan] at h
  | succ n ih =>
    cases i with
    | zero => rfl
    | succ i =>
      simp only [Memory.readSpan, List.getElem_cons_succ]
      rw [ih]
      congr 1
      omega

/-- Filling a pane keeps the canonical form (R155). -/
theorem fillPane_wf {ram : Memory 8} (h : Memory.wf ram) (k : Fin 4) (ws : List Word) : Memory.wf (fillPane ram k ws) :=
  Memory.wf_writeSpan (Memory.wf_writeSpan h _ _) _ _

/-- Writing at a cursor keeps the canonical form (R150). -/
theorem writeBytes_wf (page : Fin 8) (x : Memory 8 × Fin 128) (bs : List Byte) (h : Memory.wf x.1) :
    Memory.wf (writeBytes page x bs).1 := by
  induction bs generalizing x with
  | nil => exact h
  | cons b bs ih => exact ih _ (Memory.wf_write h _ _)

/-- The words of a store keep the canonical form (R107). -/
theorem storedWords_wf {m : Memory 16} (h : Memory.wf m) (x : StoreOp) (acc : StoreAccepted) :
    Memory.wf (storedWords m x acc) := by
  have step : ∀ (ok : Bool) (m : Memory 16) (a : Nat) (v : Word), Memory.wf m → Memory.wf (writeIf ok m a v) := by
    intro ok m a v hm
    unfold writeIf
    split
    · exact Memory.wf_write hm a v
    · exact hm
  exact step _ _ _ _ (step _ _ _ _ (step _ _ _ _ h))

end Machine
end Sys2Proof
end

