-- ==== Sys2Proof/Laws/Works.lean ====
section
/-! SUPPORT. Everything the sequencer and the pools may do to the state, said once: the relation `Works`, its
transitivity, and that each shared operation stays inside it. A proof about an event cites these and never unfolds
a start, an end or an abort of a step. -/

namespace Sys2Proof
namespace Machine

open Relation

/-! ### What may happen to one record -/

/-- Notices are posted and nothing else. -/
def Posted : PortRecord → PortRecord → Prop := ReflTransGen (fun r r' => ∃ n, r' = r.post n)

/-- The panel mode stays, or a prompt shows the RAM (R155). -/
def Shown (p q : Panel) : Prop :=
  (q.display = p.display ∧ q.allPoints = p.allPoints ∧ q.saver = p.saver) ∨
    (q.display = .on ∧ q.allPoints = .normal ∧ q.saver = .none)

/-- One change of a seat record: fields the state does not fix, a transition, or an entry into FAULT. -/
inductive RecordMove : SeatRecord → SeatRecord → Prop where
  | edit (r r' : SeatRecord) (hs : r'.state = r.state) (hc : r'.cause = r.cause) (ha : r'.actuator = r.actuator)
      (hp : r'.supply = r.supply) (hd : r'.deadline = r.deadline) : RecordMove r r'
  | enter (r : SeatRecord) (st : SeatState) (d : Option RackTime) (hst : st ≠ .fault)
      (hd : d.isSome = st.timed) : RecordMove r (r.enter st d)
  | fault (r : SeatRecord) (c : Cause) (hc : c.isFault = true) : RecordMove r (r.enterFault c)

/-- Changes of a seat record, one after another. -/
def RecordMoves : SeatRecord → SeatRecord → Prop := ReflTransGen RecordMove

/-- Entries are appended to a result store. -/
def Appended : ResultStore → ResultStore → Prop := ReflTransGen (fun r r' => ∃ e, r' = r.append e)

/-- The channel pool with the program table. -/
abbrev Pool := Vector Channel 8 × Vector ProgramEntry 48

/-- One change of the pool: a channel goes on, is bound, or is freed. -/
inductive PoolMove : Pool → Pool → Prop where
  | edit (cs : Vector Channel 8) (ps : Vector ProgramEntry 48) (c : Fin 8) (x : Channel)
      (hp : x.program = cs[c].program) (hs : x.state = .free ↔ cs[c].state = .free) :
      PoolMove (cs, ps) (cs.set c x, ps)
  | bind (cs : Vector Channel 8) (ps : Vector ProgramEntry 48) (c : Fin 8) (x : Channel) (i : Fin 48)
      (hf : cs[c].state = .free) (hs : x.state ≠ .free) (hp : x.program = some i) :
      PoolMove (cs, ps) (cs.set c x, ps.set i { ps[i] with uses := ps[i].uses + 1 })
  | free (cs : Vector Channel 8) (ps : Vector ProgramEntry 48) (c : Fin 8) :
      PoolMove (cs, ps) (cs.set c Channel.free,
        match cs[c].program with
        | none => ps
        | some i => ps.set i { ps[i] with uses := ps[i].uses - 1 })

/-- Changes of the pool, one after another. -/
def PoolMoves : Pool → Pool → Prop := ReflTransGen PoolMove

/-- The measurement slots with the limit table. -/
abbrev SlotPool := Vector MeasSlot 6 × Vector LimitEntry 256

/-- One change of the slots: a slot goes on, is bound, or is freed. -/
inductive SlotMove : SlotPool → SlotPool → Prop where
  | edit (ms : Vector MeasSlot 6) (ls : Vector LimitEntry 256) (m : Fin 6) (x : MeasSlot)
      (hp : x.limit = ms[m].limit) (hs : x.state = .free ↔ ms[m].state = .free) :
      SlotMove (ms, ls) (ms.set m x, ls)
  | bind (ms : Vector MeasSlot 6) (ls : Vector LimitEntry 256) (m : Fin 6) (x : MeasSlot) (i : Fin 256)
      (hf : ms[m].state = .free) (hs : x.state ≠ .free) (hp : x.limit = some i) :
      SlotMove (ms, ls) (ms.set m x, ls.set i { ls[i] with uses := ls[i].uses + 1 })
  | free (ms : Vector MeasSlot 6) (ls : Vector LimitEntry 256) (m : Fin 6) :
      SlotMove (ms, ls) (ms.set m MeasSlot.free,
        match ms[m].limit with
        | none => ls
        | some i => ls.set i { ls[i] with uses := ls[i].uses - 1 })

/-- Changes of the slots, one after another. -/
def SlotMoves : SlotPool → SlotPool → Prop := ReflTransGen SlotMove

@[simp] theorem Posted.refl (r : PortRecord) : Posted r r := ReflTransGen.refl
@[simp] theorem Shown.refl (p : Panel) : Shown p p := Or.inl ⟨rfl, rfl, rfl⟩
@[simp] theorem RecordMoves.refl (r : SeatRecord) : RecordMoves r r := ReflTransGen.refl
@[simp] theorem Appended.refl (r : ResultStore) : Appended r r := ReflTransGen.refl
@[simp] theorem PoolMoves.refl (x : Pool) : PoolMoves x x := ReflTransGen.refl
@[simp] theorem SlotMoves.refl (x : SlotPool) : SlotMoves x x := ReflTransGen.refl

theorem Shown.trans {p q r : Panel} (h : Shown p q) (g : Shown q r) : Shown p r := by
  rcases g with ⟨g1, g2, g3⟩ | g
  · rcases h with ⟨h1, h2, h3⟩ | ⟨h1, h2, h3⟩
    · exact Or.inl ⟨g1.trans h1, g2.trans h2, g3.trans h3⟩
    · exact Or.inr ⟨g1.trans h1, g2.trans h2, g3.trans h3⟩
  · exact Or.inr g

/-! ### What may happen to the whole state -/

/-- What the KT36 does outside the tables the stations write: binds, moves, frees, starts, ends, aborts, transitions,
notices and prompts, on the seats of `T`. -/
structure Works (T : Fin 4 → Prop) (s t : State) : Prop where
  pending : t.pending = s.pending := by intros; first | (simp; done) | rfl
  clock : t.clock = s.clock := by intros; first | (simp; done) | rfl
  loader : t.loader = s.loader := by intros; first | (simp; done) | rfl
  eeprom : t.eeprom = s.eeprom := by intros; first | (simp; done) | rfl
  pattern : t.pattern = s.pattern := by intros; first | (simp; done) | rfl
  grants : t.grants = s.grants := by intros; first | (simp; done) | rfl
  calibration : t.calibration = s.calibration := by intros; first | (simp; done) | rfl
  inputs : t.inputs = s.inputs := by intros; first | (simp; done) | rfl
  cursor : ∀ p, t.cursor p = s.cursor p := by intros; first | (simp; done) | rfl
  key : ∀ y, t.key y = s.key y := by intros; first | (simp; done) | rfl
  mode : ∀ k, (t.lamp k).mode = (s.lamp k).mode := by intros; first | (simp; done) | rfl
  programs : ∀ i, (t.program i).program = (s.program i).program := by intros; first | (simp; done) | rfl
  limits : ∀ i, (t.limit i).limit = (s.limit i).limit := by intros; first | (simp; done) | rfl
  ports : ∀ p, Posted (s.port p) (t.port p) := by intros; first | (simp; done) | exact Posted.refl _
  panel : Shown s.panel t.panel := by intros; first | (simp; done) | exact Shown.refl _
  ram : Memory.wf s.panel.ram → Memory.wf t.panel.ram := by intro h; first | exact h | simpa using h
  records : ∀ k, RecordMoves (s.record k) (t.record k) := by intros; first | (simp; done) | exact RecordMoves.refl _
  owner : ∀ k, (t.record k).owner = (s.record k).owner := by intros; first | (simp; done) | rfl
  serial : ∀ k, (t.record k).serial = (s.record k).serial := by intros; first | (simp; done) | rfl
  sensor : ∀ k x, (t.record k).sensor x = (s.record k).sensor x := by intros; first | (simp; done) | rfl
  filters : ∀ k, (t.capture k).filters = (s.capture k).filters := by intros; first | (simp; done) | rfl
  captured : ∀ k, (t.capture k).queue = (s.capture k).queue := by intros; first | (simp; done) | rfl
  acceptLong : ∀ k, (t.capture k).acceptLong = (s.capture k).acceptLong := by intros; first | (simp; done) | rfl
  overflow : ∀ k, (t.capture k).overflow = (s.capture k).overflow := by intros; first | (simp; done) | rfl
  queue : ∀ k, (t.seat k).queue <:+ (s.seat k).queue := by intros; first | (simp; done) | rfl
  results : ∀ k, Appended (s.seat k).results (t.seat k).results := by intros; first | (simp; done) | exact Appended.refl _
  pool : PoolMoves (s.channels, s.programs) (t.channels, t.programs) := by intros; first | (simp; done) | exact PoolMoves.refl _
  slots : SlotMoves (s.slots, s.limits) (t.slots, t.limits) := by intros; first | (simp; done) | exact SlotMoves.refl _
  waits : ∀ k, k ∈ t.waitList → k ∈ s.waitList ∨ T k := by intro k h; first | exact Or.inl h | exact Or.inl (by simpa using h)
  othersRecord : ∀ k, ¬ T k → t.record k = s.record k := by intros; first | (simp; done) | rfl
  othersQueue : ∀ k, ¬ T k → (t.seat k).queue = (s.seat k).queue := by intros; first | (simp; done) | rfl
  othersRunning : ∀ k, ¬ T k → (t.seat k).running = (s.seat k).running := by intros; first | (simp; done) | rfl
  othersResults : ∀ k, ¬ T k → (t.seat k).results = (s.seat k).results := by intros; first | (simp; done) | rfl
  othersCapture : ∀ k, ¬ T k → t.capture k = s.capture k := by intros; first | (simp; done) | rfl
  othersPrompt : ∀ k, ¬ T k → t.prompt k = s.prompt k := by intros; first | (simp; done) | rfl

variable {T : Fin 4 → Prop} {s t u : State}

@[refl] theorem Works.refl (T : Fin 4 → Prop) (s : State) : Works T s s := {}

theorem Works.trans (h : Works T s t) (g : Works T t u) : Works T s u where
  pending := g.pending.trans h.pending
  clock := g.clock.trans h.clock
  loader := g.loader.trans h.loader
  eeprom := g.eeprom.trans h.eeprom
  pattern := g.pattern.trans h.pattern
  grants := g.grants.trans h.grants
  calibration := g.calibration.trans h.calibration
  inputs := g.inputs.trans h.inputs
  cursor p := (g.cursor p).trans (h.cursor p)
  key y := (g.key y).trans (h.key y)
  mode k := (g.mode k).trans (h.mode k)
  programs i := (g.programs i).trans (h.programs i)
  limits i := (g.limits i).trans (h.limits i)
  ports p := ReflTransGen.trans (h.ports p) (g.ports p)
  panel := h.panel.trans g.panel
  ram x := g.ram (h.ram x)
  records k := ReflTransGen.trans (h.records k) (g.records k)
  owner k := (g.owner k).trans (h.owner k)
  serial k := (g.serial k).trans (h.serial k)
  sensor k x := (g.sensor k x).trans (h.sensor k x)
  filters k := (g.filters k).trans (h.filters k)
  captured k := (g.captured k).trans (h.captured k)
  acceptLong k := (g.acceptLong k).trans (h.acceptLong k)
  overflow k := (g.overflow k).trans (h.overflow k)
  queue k := (g.queue k).trans (h.queue k)
  results k := ReflTransGen.trans (h.results k) (g.results k)
  pool := ReflTransGen.trans h.pool g.pool
  slots := ReflTransGen.trans h.slots g.slots
  waits k hk := (g.waits k hk).elim (h.waits k) Or.inr
  othersRecord k hk := (g.othersRecord k hk).trans (h.othersRecord k hk)
  othersQueue k hk := (g.othersQueue k hk).trans (h.othersQueue k hk)
  othersRunning k hk := (g.othersRunning k hk).trans (h.othersRunning k hk)
  othersResults k hk := (g.othersResults k hk).trans (h.othersResults k hk)
  othersCapture k hk := (g.othersCapture k hk).trans (h.othersCapture k hk)
  othersPrompt k hk := (g.othersPrompt k hk).trans (h.othersPrompt k hk)

theorem Works.mono {U : Fin 4 → Prop} (h : Works T s t) (hu : ∀ k, T k → U k) : Works U s t :=
  { h with
    waits := fun k hk => (h.waits k hk).imp id (hu k)
    othersRecord := fun k hk => h.othersRecord k (fun x => hk (hu k x))
    othersQueue := fun k hk => h.othersQueue k (fun x => hk (hu k x))
    othersRunning := fun k hk => h.othersRunning k (fun x => hk (hu k x))
    othersResults := fun k hk => h.othersResults k (fun x => hk (hu k x))
    othersCapture := fun k hk => h.othersCapture k (fun x => hk (hu k x))
    othersPrompt := fun k hk => h.othersPrompt k (fun x => hk (hu k x)) }

theorem Works.foldl {α : Type} {f : State → α → State} (xs : List α) (s : State)
    (h : ∀ s, ∀ a ∈ xs, Works T s (f s a)) : Works T s (xs.foldl f s) := by
  induction xs generalizing s with
  | nil => exact Works.refl T s
  | cons a xs ih =>
    exact (h s a (by simp)).trans (ih _ (fun s b hb => h s b (by simp [hb])))

theorem Works.ite {c : Prop} [Decidable c] (h : c → Works T s t) (g : ¬ c → Works T s u) :
    Works T s (if c then t else u) := by
  split
  · exact h ‹_›
  · exact g ‹_›

/-! ### The updates -/

theorem works_setOutputs (k : Fin 4) (x : Outputs) : Works T s (s.setOutputs k x) := {}

theorem works_setFrame (k : Fin 4) (f : Fin 8) (x : FrameSlot) : Works T s (s.setFrame k f x) := {}

theorem works_setLink (k : Fin 4) (x : FrameLink) : Works T s (s.setLink k x) := {}

theorem works_setQueue (k : Fin 4) (q : List Step) (hq : q <:+ (s.seat k).queue) (hk : T k) :
    Works T s (s.setQueue k q) where
  queue j := by
    by_cases h : j = k
    · subst h; simpa using hq
    · simp [h]
  othersQueue j hj := by
    have h : j ≠ k := fun e => hj (e ▸ hk)
    simp [h]

theorem works_setRunning (k : Fin 4) (r : Option Running) (hk : T k) : Works T s (s.setRunning k r) where
  othersRunning j hj := by
    have h : j ≠ k := fun e => hj (e ▸ hk)
    simp [h]

theorem works_setCapture (k : Fin 4) (x : Capture) (hk : T k) (hf : x.filters = (s.capture k).filters)
    (hq : x.queue = (s.capture k).queue) (ha : x.acceptLong = (s.capture k).acceptLong)
    (ho : x.overflow = (s.capture k).overflow) : Works T s (s.setCapture k x) where
  filters j := by by_cases h : j = k <;> [(subst h; simpa using hf); simp [h]]
  captured j := by by_cases h : j = k <;> [(subst h; simpa using hq); simp [h]]
  acceptLong j := by by_cases h : j = k <;> [(subst h; simpa using ha); simp [h]]
  overflow j := by by_cases h : j = k <;> [(subst h; simpa using ho); simp [h]]
  othersCapture j hj := by
    have h : j ≠ k := fun e => hj (e ▸ hk)
    simp [h]

theorem works_setResults (k : Fin 4) (e : ResultEntry) (hk : T k) :
    Works T s (s.setResults k ((s.seat k).results.append e)) where
  results j := by
    by_cases h : j = k
    · subst h; simp only [seat_setResults_same]; exact ReflTransGen.single ⟨e, rfl⟩
    · simp [h]
  othersResults j hj := by
    have h : j ≠ k := fun e => hj (e ▸ hk)
    simp [h]

theorem works_setRecord (k : Fin 4) (r : SeatRecord) (hk : T k) (hm : RecordMove (s.record k) r)
    (ho : r.owner = (s.record k).owner) (hr : r.serial = (s.record k).serial)
    (hx : ∀ x, r.sensor x = (s.record k).sensor x) : Works T s (s.setRecord k r) where
  records j := by
    by_cases h : j = k
    · subst h; simp only [record_setRecord_same]; exact ReflTransGen.single hm
    · simp [h]
  owner j := by by_cases h : j = k <;> [(subst h; simpa using ho); simp [h]]
  serial j := by by_cases h : j = k <;> [(subst h; simpa using hr); simp [h]]
  sensor j x := by by_cases h : j = k <;> [(subst h; simpa using hx x); simp [h]]
  othersRecord j hj := by
    have h : j ≠ k := fun e => hj (e ▸ hk)
    simp [h]

theorem works_post (p : Port) (n : Notice) : Works T s (s.post p n) := by
  cases p
  · exact { ports := fun q => by
              cases q
              · exact ReflTransGen.single ⟨n, rfl⟩
              · exact Posted.refl _,
            cursor := fun q => by cases q <;> rfl }
  · exact { ports := fun q => by
              cases q
              · exact Posted.refl _
              · exact ReflTransGen.single ⟨n, rfl⟩,
            cursor := fun q => by cases q <;> rfl }

theorem works_setLamp (k : Fin 4) (x : Lamp) (h : x.mode = (s.lamp k).mode) : Works T s (s.setLamp k x) where
  mode j := by by_cases g : j = k <;> [(subst g; simpa using h); simp [g]]
  panel := Or.inl ⟨rfl, rfl, rfl⟩

theorem works_setPrompt (k : Fin 4) (x : PromptRecord) (hk : T k) : Works T s (s.setPrompt k x) where
  panel := Or.inl ⟨rfl, rfl, rfl⟩
  othersPrompt j hj := by
    have h : j ≠ k := fun e => hj (e ▸ hk)
    simp [h]

theorem works_setChannel (c : Fin 8) (x : Channel) (hp : x.program = (s.channel c).program)
    (hs : x.state = .free ↔ (s.channel c).state = .free) : Works T s (s.setChannel c x) where
  pool := ReflTransGen.single (PoolMove.edit s.channels s.programs c x hp hs)

theorem works_setSlot (m : Fin 6) (x : MeasSlot) (hp : x.limit = (s.slot m).limit)
    (hs : x.state = .free ↔ (s.slot m).state = .free) : Works T s (s.setSlot m x) where
  slots := ReflTransGen.single (SlotMove.edit s.slots s.limits m x hp hs)

theorem works_waitList (l : List (Fin 4)) (hl : ∀ k ∈ l, k ∈ s.waitList ∨ T k) :
    Works T s { s with waitList := l } where
  waits := hl

end Machine
end Sys2Proof
end

