-- ==== Sys2Proof/Laws/Pools.lean ====
section
/-! SUPPORT. The operations of the acquisition unit, the channel pool, the frame links and the panel stay inside
`Works`: binds, frees, moves, marks, transmissions, notices, transitions and prompts. -/

namespace Sys2Proof
namespace Machine

open Relation

variable {T : Fin 4 → Prop} {s : State}

/-! ### Acquisition -/

theorem works_converter (m : Fin 6) (x : Converter) : Works T s { s with rotation := m, converter := x } := {}

theorem works_draws (n : Nat) : Works T s { s with draws := n } := {}

theorem works_bindings (n : Nat) : Works T s { s with bindings := n } := {}

theorem works_startConversion (m : Fin 6) : Works T s (s.startConversion m) := by
  unfold State.startConversion
  dsimp only
  split
  · refine Works.trans (works_setSlot m _ ?_ ?_) (works_converter _ _)
    · rfl
    · exact Iff.rfl
  · exact Works.refl T s

theorem works_converterArbiter : Works T s s.converterArbiter := by
  unfold State.converterArbiter
  split
  · exact Works.refl T s
  · split
    · exact Works.refl T s
    · exact works_startConversion _

theorem works_openGate (m : Fin 6) : Works T s (s.openGate m) := by
  unfold State.openGate
  dsimp only
  refine Works.ite (fun h => ?_) (fun _ => Works.refl T s)
  refine Works.trans (works_setSlot m _ ?_ ?_) works_converterArbiter
  · rfl
  · simp [h]

theorem works_takeInOpenOrder {α : Type} {f : State → α → State} (xs : List α)
    (h : ∀ s, ∀ a, Works T s (f s a)) : Works T s (s.takeInOpenOrder xs f) := by
  unfold State.takeInOpenOrder
  split
  · exact Works.refl T s
  · exact h s _
  · exact (works_draws _).trans (Works.foldl _ _ (fun s a _ => h s a))

theorem works_openMarkGates (k : Fin 4) (e : Fin 3) : Works T s (s.openMarkGates k e) :=
  works_takeInOpenOrder _ (fun _ m => works_openGate m)

theorem works_bindSlot (m : Fin 6) (k : Fin 4) (i : Fin 2) (x : Measurement) (start : RackTime) (window : Nat)
    (hf : (s.slot m).state = .free) : Works T s (s.bindSlot m k i x start window) := by
  have hb : Works T s (((s.setSlot m (MeasSlot.bound k i x start window s.bindings)).useLimit x.limit)) :=
    { slots := ReflTransGen.single
        (SlotMove.bind s.slots s.limits m (MeasSlot.bound k i x start window s.bindings) x.limit hf
          (by simp [MeasSlot.bound]) rfl),
      limits := fun j => by
        by_cases h : j = x.limit
        · subst h; simp [State.useLimit]
        · simp [State.useLimit, h] }
  have hc := hb.trans (works_bindings (s.bindings + 1))
  unfold State.bindSlot
  exact Works.ite (fun _ => hc.trans (works_openGate m)) (fun _ => hc)

theorem works_freeSlot (m : Fin 6) : Works T s (s.freeSlot m) := by
  have hm := SlotMove.free s.slots s.limits m
  unfold State.freeSlot
  split
  · next h =>
    have e : s.slots[m].limit = none := h
    rw [e] at hm
    exact { slots := ReflTransGen.single hm }
  · next l h =>
    have e : s.slots[m].limit = some l := h
    rw [e] at hm
    exact { slots := ReflTransGen.single hm,
            limits := fun j => by
              by_cases g : j = l
              · subst g; simp [State.unuseLimit]
              · simp [State.unuseLimit, g] }

/-! ### The channel pool -/

theorem works_bindChannel (c : Fin 8) (k : Fin 4) (e : Fin 3) (x : ChannelEntry) (start : RackTime)
    (hf : (s.channel c).state = .free) : Works T s (s.bindChannel c k e x start) := by
  unfold State.bindChannel
  split
  · exact Works.refl T s
  · next p _ =>
    exact { pool := ReflTransGen.single
              (PoolMove.bind s.channels s.programs c (Channel.bound k e x p start) x.program hf
                (by simp [Channel.bound]) rfl),
            programs := fun j => by
              by_cases h : j = x.program
              · subst h; simp [State.useProgram]
              · simp [State.useProgram, h] }

theorem works_restTarget (ch : Channel) : Works T s (s.restTarget ch) := by
  unfold State.restTarget
  split
  · exact works_setOutputs _ _
  · exact Works.refl T s

/-- What resting a channel's output leaves alone. -/
theorem restTarget_pool (ch : Channel) :
    (s.restTarget ch).channels = s.channels ∧ (s.restTarget ch).programs = s.programs := by
  unfold State.restTarget
  split <;> exact ⟨rfl, rfl⟩

theorem works_freeChannel (c : Fin 8) : Works T s (s.freeChannel c) := by
  have hm := PoolMove.free s.channels s.programs c
  have hr : ∀ u : State, Works T u (u.restTarget (s.channel c)) := fun u => works_restTarget _
  unfold State.freeChannel State.unuseBy
  split
  · next h =>
    have e : s.channels[c].program = none := h
    rw [e] at hm
    have hp := restTarget_pool (s := s) (s.channel c)
    exact { hr s with
            key := fun y => (hr s).key y,
            pool := by
              show PoolMoves (s.channels, s.programs) ((s.restTarget (s.channel c)).channels.set c Channel.free,
                (s.restTarget (s.channel c)).programs)
              rw [hp.1, hp.2]
              exact ReflTransGen.single hm }
  · next i h =>
    have e : s.channels[c].program = some i := h
    rw [e] at hm
    have hp := restTarget_pool (s := s.unuseProgram i) (s.channel c)
    exact { hr (s.unuseProgram i) with
            programs := fun j => by
              rw [show ((((s.unuseProgram i).restTarget (s.channel c)).setChannel c Channel.free).program j).program =
                ((s.unuseProgram i).program j).program from (hr (s.unuseProgram i)).programs j]
              by_cases g : j = i
              · subst g; simp [State.unuseProgram]
              · simp [State.unuseProgram, g],
            pool := by
              show PoolMoves (s.channels, s.programs)
                (((s.unuseProgram i).restTarget (s.channel c)).channels.set c Channel.free,
                  ((s.unuseProgram i).restTarget (s.channel c)).programs)
              rw [hp.1, hp.2]
              exact ReflTransGen.single hm }

/-- A channel whose record goes on as it was, but for fields other than program and state. -/
theorem works_editChannel (c : Fin 8) (x : Channel) (hp : x.program = (s.channel c).program)
    (hs : x.state = (s.channel c).state) : Works T s (s.setChannel c x) :=
  works_setChannel c x hp (by rw [hs])

theorem request_program (ch : Channel) (b : Nat) : (ch.request b).program = ch.program := by
  unfold Channel.request; split <;> rfl

/-- A trigger frees no channel and binds none (R70). -/
theorem request_state (ch : Channel) (b : Nat) : (ch.request b).state = .free ↔ ch.state = .free := by
  unfold Channel.request Channel.takesTrigger
  split
  · next h =>
    refine ⟨fun x => by simp at x, fun x => ?_⟩
    simp [x] at h
  · exact Iff.rfl

theorem works_trigger (c : Fin 8) : Works T s (s.trigger c) := by
  unfold State.trigger
  split
  · exact Works.refl T s
  · exact works_setChannel c _ (request_program _ _) (request_state _ _)

/-- A trigger frees no channel and binds none (R70). -/
theorem trigger_state (c d : Fin 8) : ((s.trigger c).channel d).state = .free ↔ (s.channel d).state = .free := by
  unfold State.trigger
  split
  · exact Iff.rfl
  · by_cases h : d = c
    · subst h; simp [request_state]
    · simp [h]

/-! ### Notices -/

theorem works_postBoth (n : Notice) : Works T s (s.postBoth n) := (works_post .a n).trans (works_post .b n)

theorem works_postSeat (k : Fin 4) (n : Notice) : Works T s (s.postSeat k n) := by
  unfold State.postSeat
  split
  · exact works_post _ n
  · exact works_postBoth n

/-! ### Moves -/

theorem works_deliver (k : Fin 4) (t : Target) (made : Nat) (w : Word) : Works T s (s.deliver k t made w) := by
  unfold State.deliver
  split
  · exact works_setFrame _ _ _
  · exact works_setOutputs _ _

theorem works_openMarked (c : Fin 8) (k : Fin 4) : Works T s (s.openMarked c k) := by
  unfold State.openMarked
  split
  · exact Works.ite (fun _ => works_openMarkGates _ _) (fun _ => Works.refl T s)
  · exact Works.refl T s

theorem works_raiseMark (c : Fin 8) (k : Fin 4) (p : Program) : Works T s (s.raiseMark c k p) :=
  Works.ite (fun _ => (works_openMarked c k).trans (works_postSeat _ _)) (fun _ => works_openMarked c k)

theorem converterArbiter_channels : s.converterArbiter.channels = s.channels := by
  unfold State.converterArbiter State.startConversion
  split
  · rfl
  · split
    · rfl
    · dsimp only
      split <;> rfl

theorem openGate_channels (m : Fin 6) : (s.openGate m).channels = s.channels := by
  unfold State.openGate
  dsimp only
  split
  · rw [converterArbiter_channels]; rfl
  · rfl

theorem foldl_openGate_channels (xs : List (Fin 6)) : (xs.foldl State.openGate s).channels = s.channels := by
  induction xs generalizing s with
  | nil => rfl
  | cons m xs ih => rw [List.foldl_cons, ih, openGate_channels]

theorem openMarkGates_channels (k : Fin 4) (e : Fin 3) : (s.openMarkGates k e).channels = s.channels := by
  unfold State.openMarkGates State.takeInOpenOrder
  split
  · rfl
  · exact openGate_channels _
  · rw [foldl_openGate_channels]; rfl

theorem postSeat_channels (k : Fin 4) (n : Notice) : (s.postSeat k n).channels = s.channels := by
  unfold State.postSeat State.postBoth State.post
  split <;> simp

theorem openMarked_channels (c : Fin 8) (k : Fin 4) : (s.openMarked c k).channels = s.channels := by
  unfold State.openMarked
  split
  · split
    · exact openMarkGates_channels _ _
    · rfl
  · rfl

theorem raiseMark_channels (c : Fin 8) (k : Fin 4) (p : Program) : (s.raiseMark c k p).channels = s.channels := by
  unfold State.raiseMark
  dsimp only
  split
  · rw [postSeat_channels]; exact openMarked_channels c k
  · exact openMarked_channels c k

theorem works_chainFrom (k : Fin 4) (e : Fin 3) : Works T s (s.chainFrom k e) :=
  Works.foldl _ _ (fun _ _ _ => Works.ite (fun _ => works_trigger _) (fun _ => Works.refl T _))

theorem chainFrom_state (k : Fin 4) (e : Fin 3) (d : Fin 8) :
    ((s.chainFrom k e).channel d).state = .free ↔ (s.channel d).state = .free := by
  unfold State.chainFrom
  generalize ids8 = xs
  induction xs generalizing s with
  | nil => exact Iff.rfl
  | cons c xs ih =>
    rw [List.foldl_cons, ih]
    split
    · exact trigger_state _ _
    · exact Iff.rfl

theorem works_chainEnd (c : Fin 8) (k : Fin 4) : Works T s (s.chainEnd c k) := by
  unfold State.chainEnd
  split
  · exact Works.ite (fun _ => works_chainFrom _ _) (fun _ => Works.refl T s)
  · exact Works.refl T s

theorem chainEnd_state (c : Fin 8) (k : Fin 4) (d : Fin 8) :
    ((s.chainEnd c k).channel d).state = .free ↔ (s.channel d).state = .free := by
  unfold State.chainEnd
  split
  · split
    · exact chainFrom_state _ _ _
    · exact Iff.rfl
  · exact Iff.rfl

theorem works_endTransaction (c : Fin 8) (k : Fin 4) (p : Program) (h : (s.channel c).state ≠ .free) :
    Works T s (s.endTransaction c k p) := by
  have h1 : Works T s (s.setChannel c ((s.channel c).reload p.count)) := works_editChannel c _ rfl rfl
  have h2 := h1.trans (works_chainEnd (T := T) c k)
  unfold State.endTransaction
  dsimp only
  split
  · refine h2.trans (works_setChannel c _ rfl ⟨fun x => ?_, fun x => ?_⟩)
    · simp at x
    · rw [chainEnd_state] at x
      exact absurd (by simpa [Channel.reload] using x) h
  · exact h2

theorem works_makeMove (c : Fin 8) (k : Fin 4) (t : Target) (p : Program) (h : (s.channel c).state ≠ .free) :
    Works T s (s.makeMove c k t p) := by
  unfold State.makeMove
  simp only
  have h1 : Works T s (s.deliver k t (s.channel c).made (Memory.read s.pattern (s.channel c).address.toNat)) :=
    works_deliver _ _ _ _
  have hch : (s.deliver k t (s.channel c).made (Memory.read s.pattern (s.channel c).address.toNat)).channel c =
      s.channel c := by
    unfold State.deliver; split <;> simp
  generalize s.deliver k t (s.channel c).made (Memory.read s.pattern (s.channel c).address.toNat) = d at h1 hch ⊢
  have h2 : Works T d (d.setChannel c ((s.channel c).counted p)) :=
    works_setChannel c _ (by rw [hch]; rfl) ⟨fun x => by simp [Channel.counted] at x, fun x => absurd (hch ▸ x) h⟩
  have hc2 : ((d.setChannel c ((s.channel c).counted p)).channel c).state ≠ .free := by simp [Channel.counted]
  generalize d.setChannel c ((s.channel c).counted p) = e at h2 hc2 ⊢
  have h3 : Works T e (if ((s.channel c).counted p).remaining = p.mark then e.raiseMark c k p else e) :=
    Works.ite (fun _ => works_raiseMark _ _ _) (fun _ => Works.refl T e)
  have hc3 : ((if ((s.channel c).counted p).remaining = p.mark then e.raiseMark c k p else e).channel c).state ≠
      .free := by
    split
    · unfold State.channel; rw [raiseMark_channels]; exact hc2
    · exact hc2
  generalize (if ((s.channel c).counted p).remaining = p.mark then e.raiseMark c k p else e) = m at h3 hc3 ⊢
  have h4 : Works T m (if ((s.channel c).counted p).remaining = 0 then m.endTransaction c k p else m) :=
    Works.ite (fun _ => works_endTransaction _ _ _ hc3) (fun _ => Works.refl T m)
  exact h1.trans (h2.trans (h3.trans (h4.trans (works_editChannel c _ rfl rfl))))

theorem works_refuseMove (c : Fin 8) : Works T s (s.refuseMove c) := works_editChannel c _ rfl rfl

theorem works_moveOnce (c : Fin 8) : Works T s (s.moveOnce c).1 := by
  unfold State.moveOnce
  split
  · exact Works.refl T s
  · next h =>
    split
    · split
      · exact works_makeMove _ _ _ _ h
      · exact works_refuseMove c
    · exact Works.refl T s

theorem takesTrigger_bound {ch : Channel} (h : ch.takesTrigger = true) : ch.state ≠ .free := by
  intro x
  simp [Channel.takesTrigger, x] at h

/-- The state a refused block leaves to its channel (R66, R83). -/
theorem works_blockEnd (r : State × Bool) (c : Fin 8) (st : ChannelState) (hst : st ≠ .free) :
    Works T r.1 (State.blockEnd r c st).1 := by
  unfold State.blockEnd
  split
  · refine works_setChannel c _ ?_ ?_
    · unfold Channel.unmoved; split <;> rfl
    · unfold Channel.unmoved
      split
      · next h => exact ⟨fun x => absurd x hst, fun x => by rw [h.1] at x; simp at x⟩
      · exact Iff.rfl
  · exact Works.refl T r.1

theorem works_triggerAndMove (c : Fin 8) : Works T s (s.triggerAndMove c).1 := by
  unfold State.triggerAndMove
  split
  · next h =>
    exact (works_trigger c).trans ((works_moveOnce c).trans (works_blockEnd _ c _ (takesTrigger_bound h)))
  · exact Works.refl T s

theorem works_runBlock (c : Fin 8) (n : Nat) : Works T s (s.runBlock c n).1 := by
  induction n generalizing s with
  | zero => exact Works.refl T s
  | succ n ih =>
    unfold State.runBlock
    split
    · exact Works.refl T s
    · split
      · exact works_moveOnce c
      · exact (works_moveOnce c).trans ih

theorem rearm_program (ch : Channel) : ch.rearm.program = ch.program ∧ ch.rearm.state = ch.state := by
  unfold Channel.rearm; split <;> exact ⟨rfl, rfl⟩

theorem works_takeTimer (c : Fin 8) : Works T s (s.takeTimer c).1 :=
  (works_editChannel c _ (rearm_program _).1 (rearm_program _).2).trans (works_triggerAndMove c)

/-! ### The frame links -/

theorem works_eachFrame (k : Fin 4) (f : FrameSlot → FrameSlot) : Works T s (s.eachFrame k f) :=
  Works.foldl _ _ (fun _ _ _ => works_setFrame _ _ _)

theorem works_frameTriggerOne (k : Fin 4) (f c : Fin 8) (o : Option (Fin 8)) :
    Works T s (frameTriggerOne k f (s, o) c).1 := by
  unfold frameTriggerOne
  simp only
  split
  · split
    · next h =>
      exact (works_trigger c).trans ((works_runBlock c _).trans
        (works_blockEnd _ c _ (takesTrigger_bound (Bool.and_eq_true_iff.mp h).2)))
    · exact works_trigger c
  · exact Works.refl T s

theorem works_frameTrigger (k : Fin 4) (f : Fin 8) : Works T s (s.frameTrigger k f).1 := by
  have h : ∀ (xs : List (Fin 8)) (acc : State × Option (Fin 8)),
      Works T acc.1 (xs.foldl (frameTriggerOne k f) acc).1 := by
    intro xs
    induction xs with
    | nil => exact fun acc => Works.refl T acc.1
    | cons c xs ih =>
      intro acc
      rw [List.foldl_cons]
      exact (works_frameTriggerOne k f c acc.2).trans (ih _)
  exact h ids8 (s, none)

theorem works_startTransmission (k : Fin 4) (f : Fin 8) : Works T s (s.startTransmission k f).1 :=
  (works_setFrame _ _ _).trans ((works_frameTrigger k f).trans (works_setLink _ _))

theorem works_transmitArbiter (k : Fin 4) : Works T s (s.transmitArbiter k).1 := by
  unfold State.transmitArbiter
  split
  · exact Works.refl T s
  · split
    · split
      · exact Works.refl T s
      · exact works_startTransmission _ _
    · exact Works.refl T s

theorem works_endTransmission (k : Fin 4) (f : Fin 8) (ack : Bool) : Works T s (s.endTransmission k f ack) :=
  (works_setFrame _ _ _).trans (works_setLink _ _)

/-! ### Transitions, prompts, results -/

theorem works_relamp (k : Fin 4) (m : LampMode) : Works T s (s.relamp k m) :=
  Works.ite (fun _ => Works.refl T s) (fun _ => works_setLamp k _ rfl)

theorem works_restOutputs (k : Fin 4) : Works T s (s.restOutputs k) := works_setOutputs _ _

theorem works_moveSeat (k : Fin 4) (st : SeatState) (d : Option RackTime) (hk : T k) (hst : st ≠ .fault)
    (hd : d.isSome = st.timed) : Works T s (s.moveSeat k st d) :=
  (works_setRecord k _ hk (RecordMove.enter _ st d hst hd) rfl rfl (fun x => by cases x <;> rfl)).trans
    (works_relamp _ _)

theorem works_enterState (k : Fin 4) (st : SeatState) (d : Option RackTime) (n : Option Nat) (hk : T k)
    (hst : st ≠ .fault) (hd : d.isSome = st.timed) : Works T s (s.enterState k st d n) :=
  (works_moveSeat k st d hk hst hd).trans (works_postSeat _ _)

theorem works_closePrompt (k : Fin 4) (hk : T k) : Works T s (s.closePrompt k) :=
  (works_setPrompt k _ hk).trans (works_relamp _ _)

/-- A prompt's opening shows the RAM (R155). -/
theorem works_show (p : Panel) (hr : p.ram = s.panel.ram) (hl : ∀ k : Fin 4, p.lamps[k].mode = (s.lamp k).mode)
    (hq : p.prompts = s.panel.prompts) (ha : p.cursorA = s.panel.cursorA) (hb : p.cursorB = s.panel.cursorB)
    (hy : p.yesKeys = s.panel.yesKeys) (hn : p.noKeys = s.panel.noKeys) (ht : p.stopKey = s.panel.stopKey)
    (hd : p.display = .on) (hf : p.allPoints = .normal) (hs : p.saver = .none) :
    Works T s { s with panel := p } where
  cursor q := by cases q <;> simp [State.cursor, ha, hb]
  key y := by
    cases y with
    | answer k a => cases a <;> simp [State.key, hy, hn]
    | stop => simp [State.key, ht]
  mode := hl
  panel := Or.inr ⟨hd, hf, hs⟩
  ram h := by simpa [hr] using h
  othersPrompt k _ := by simp [State.prompt, hq]

/-- What restarting lamps leaves alone. -/
theorem foldl_restartLamp (xs : List (Fin 4)) (u : State) :
    ∃ ls, xs.foldl State.restartLamp u = { u with panel := { u.panel with lamps := ls } } ∧
      ∀ k : Fin 4, ls[k].mode = (u.lamp k).mode := by
  induction xs generalizing u with
  | nil => exact ⟨u.panel.lamps, rfl, fun k => rfl⟩
  | cons x xs ih =>
    obtain ⟨ls, h, g⟩ := ih (u.restartLamp x)
    refine ⟨ls, h, fun k => ?_⟩
    rw [g]
    by_cases e : k = x
    · subst e; simp [State.restartLamp]
    · simp [State.restartLamp, e]

/-- Leaving the saver changes the saver and the lamp phases only (R163). -/
theorem leaveSaver_eq (u : State) :
    ∃ ls, u.leaveSaver = { u with panel := { u.panel with lamps := ls, saver := .none } } ∧
      ∀ k : Fin 4, ls[k].mode = (u.lamp k).mode := by
  unfold State.leaveSaver
  dsimp only
  split
  · obtain ⟨ls, h, g⟩ := foldl_restartLamp seatIds { u with panel := { u.panel with saver := .none } }
    exact ⟨ls, h, g⟩
  · exact ⟨u.panel.lamps, rfl, fun k => rfl⟩

theorem works_showRam : Works T s s.showRam := by
  obtain ⟨ls, h, g⟩ := leaveSaver_eq s
  unfold State.showRam
  rw [h]
  exact works_show _ rfl g rfl rfl rfl rfl rfl rfl rfl rfl rfl

theorem works_copyPane (k : Fin 4) (pr : Prompt) : Works T s (s.copyPane k pr) where
  cursor q := by cases q <;> rfl
  panel := Or.inl ⟨rfl, rfl, rfl⟩
  ram h := fillPane_wf h _ _

theorem works_openPrompt (k : Fin 4) (pr : Prompt) (hk : T k) : Works T s (s.openPrompt k pr) :=
  (works_copyPane k pr).trans ((works_setPrompt k _ hk).trans (works_showRam.trans (works_relamp _ _)))

theorem works_recordResult (k : Fin 4) (e : ResultEntry) (hk : T k) : Works T s (s.recordResult k e) :=
  (works_setResults k e hk).trans (works_postSeat _ _)

end Machine
end Sys2Proof
end

