-- ==== Sys2Proof/Laws/Sequencer.lean ====
section
/-! SUPPORT. The operations of the step sequencer stay inside `Works`: binds and releases, the start, the end and the
abort of a step, what leaves TESTING, the wait list, and the seat transitions of START, RESUME, STOP and FAULT. -/

namespace Sys2Proof
namespace Machine

variable {T : Fin 4 → Prop} {s : State}

/-! ### Releases -/

theorem works_freeChannels (cs : List (Fin 8)) : Works T s (s.freeChannels cs) :=
  Works.foldl _ _ (fun _ _ _ => works_freeChannel _)

theorem works_freeSlots (ms : List (Fin 6)) : Works T s (s.freeSlots ms) :=
  Works.foldl _ _ (fun _ _ _ => works_freeSlot _)

theorem works_stopExpectation (k : Fin 4) (hk : T k) : Works T s (s.stopExpectation k) :=
  works_setCapture k _ hk rfl rfl rfl rfl

theorem works_clearRunning (k : Fin 4) (hk : T k) : Works T s (s.clearRunning k) := works_setRunning k none hk

theorem works_setSnapshot (k : Fin 4) (x : Option Snapshot) (hk : T k) :
    Works T s (s.setRecord k { s.record k with snapshot := x }) :=
  works_setRecord k _ hk (RecordMove.edit _ _ rfl rfl rfl rfl rfl) rfl rfl (fun y => by cases y <;> rfl)

/-- Stages 1 to 4 of an abort (R44). -/
theorem works_abortRunning (k : Fin 4) (c : Cause) (hk : T k) : Works T s (s.abortRunning k c) := by
  unfold State.abortRunning
  split
  · exact Works.refl T s
  · exact (works_setSnapshot k _ hk).trans ((works_freeChannels _).trans ((works_freeSlots _).trans
      ((works_closePrompt k hk).trans ((works_stopExpectation k hk).trans
        ((works_recordResult k _ hk).trans (works_clearRunning k hk))))))

theorem works_keepChannel (k : Fin 4) (r : Running) : Works T s (s.keepChannel k r) := by
  unfold State.keepChannel
  split
  · exact Works.refl T s
  · next c _ =>
    have hc : Works T s (s.setChannel c (s.channel c).toKept) := works_editChannel c _ rfl rfl
    dsimp only
    split
    · exact hc
    · exact hc.trans (works_freeChannel _)

/-- The end of a step (R39, R40). -/
theorem works_endStep (k : Fin 4) (r : Running) (hk : T k) : Works T s (s.endStep k r) :=
  (works_freeChannels _).trans ((works_keepChannel k r).trans ((works_freeSlots _).trans
    ((works_closePrompt k hk).trans ((works_stopExpectation k hk).trans
      ((works_recordResult k _ hk).trans (works_clearRunning k hk))))))

/-! ### Leaving TESTING -/

theorem works_unwait (k : Fin 4) : Works T s (s.unwait k) :=
  works_waitList _ (fun _ h => Or.inl (List.mem_of_mem_filter h))

theorem works_leaveTesting (k : Fin 4) : Works T s (s.leaveTesting k) :=
  (works_freeChannels _).trans ((works_freeSlots _).trans ((works_restOutputs k).trans
    ((works_eachFrame k _).trans (works_unwait k))))

theorem works_leaveFor (k : Fin 4) (st : SeatState) (n : Option Nat) (hk : T k) (hst : st ≠ .fault)
    (hd : st.timed = false) : Works T s (s.leaveFor k st n) :=
  (works_leaveTesting k).trans (works_enterState k st none n hk hst (by simp [hd]))

/-- What a step's end does to its seat (R41). -/
theorem works_settle (k : Fin 4) (o : StepOutcome) (p : FailPolicy) (hk : T k) : Works T s (s.settle k o p) := by
  unfold State.settle
  split
  · exact (works_setQueue k [] List.nil_suffix hk).trans (works_leaveFor k _ _ hk (by decide) rfl)
  · split
    · exact works_leaveFor k _ _ hk (by decide) rfl
    · exact Works.refl T s

/-! ### Starting a step -/

theorem works_editRunning (k : Fin 4) (f : Running → Running) (hk : T k) : Works T s (s.editRunning k f) := by
  unfold State.editRunning
  split
  · exact Works.refl T s
  · exact works_setRunning k _ hk

theorem works_freeReplaced (k : Fin 4) (st : Step) : Works T s (s.freeReplaced k st) := by
  unfold State.freeReplaced
  split
  · exact Works.refl T s
  · exact works_freeChannel _

/-- The lowest-numbered free channel is free (R34). -/
theorem freeChannel?_free {c : Fin 8} (h : s.freeChannel? = some c) : (s.channel c).state = .free := by
  simpa using List.find?_some h

/-- The lowest-numbered free slot is free (R110). -/
theorem freeSlot?_free {m : Fin 6} (h : s.freeSlot? = some m) : (s.slot m).state = .free := by
  simpa using List.find?_some h

theorem works_bindEntry (k : Fin 4) (x : Fin 3 × ChannelEntry) (hk : T k) : Works T s (bindEntry k s x) := by
  unfold bindEntry
  split
  · exact Works.refl T s
  · next c h => exact (works_bindChannel c k _ _ _ (freeChannel?_free h)).trans (works_editRunning k _ hk)

theorem works_bindEntries (k : Fin 4) (st : Step) (hk : T k) : Works T s (s.bindEntries k st) :=
  Works.foldl _ _ (fun _ _ _ => works_bindEntry k _ hk)

theorem editRunning_slot (k : Fin 4) (f : Running → Running) (m : Fin 6) : (s.editRunning k f).slot m = s.slot m := by
  unfold State.editRunning
  split <;> rfl

theorem works_bindMeasurement (k : Fin 4) (w : Nat) (x : Fin 2 × Measurement) (hk : T k) :
    Works T s (bindMeasurement k w s x) := by
  unfold bindMeasurement
  split
  · exact Works.refl T s
  · next m h =>
    exact (works_editRunning k _ hk).trans
      (works_bindSlot m k _ _ _ _ (by rw [editRunning_slot]; exact freeSlot?_free h))

theorem works_bindMeasurements (k : Fin 4) (st : Step) (hk : T k) : Works T s (s.bindMeasurements k st) :=
  Works.foldl _ _ (fun _ _ _ => works_bindMeasurement k _ _ hk)

theorem works_startExpectation (k : Fin 4) (st : Step) (hk : T k) : Works T s (s.startExpectation k st) := by
  unfold State.startExpectation
  split
  · exact Works.refl T s
  · exact works_setCapture k _ hk rfl rfl rfl rfl

theorem works_startPrompt (k : Fin 4) (st : Step) (hk : T k) : Works T s (s.startPrompt k st) := by
  unfold State.startPrompt
  split
  · exact Works.refl T s
  · exact works_openPrompt k _ hk

theorem works_firstTriggers (cs : List (Fin 8)) : Works T s (s.firstTriggers cs).1 := by
  induction cs generalizing s with
  | nil => exact Works.refl T s
  | cons c cs ih =>
    unfold State.firstTriggers
    split
    · split
      · exact works_takeTimer c
      · exact (works_takeTimer c).trans ih
    · exact ih

/-- Everything a step binds and opens (R34, R35). -/
theorem works_bindStep (k : Fin 4) (st : Step) (hk : T k) : Works T s (s.bindStep k st) :=
  (works_freeReplaced k st).trans ((works_bindEntries k st hk).trans ((works_bindMeasurements k st hk).trans
    ((works_startExpectation k st hk).trans (works_startPrompt k st hk))))

theorem works_takeHead (k : Fin 4) (st : Step) (rest : List Step) (hq : (s.seat k).queue = st :: rest) (hk : T k) :
    Works T s (s.takeHead k st rest) :=
  (works_setQueue k rest (by rw [hq]; exact List.suffix_cons st rest) hk).trans (works_setRunning k _ hk)

theorem works_startTaken (k : Fin 4) (st : Step) (hk : T k) : Works T s (s.startTaken k st).1 := by
  have hb := (works_bindStep (s := s) k st hk).trans
    (works_firstTriggers (T := T) ((s.bindStep k st).stepChannels k))
  unfold State.startTaken
  split
  · exact works_abortRunning k _ hk
  · split
    · exact works_abortRunning k _ hk
    · dsimp only
      split
      · exact hb.trans (works_abortRunning k _ hk)
      · exact hb

/-- The start of the head step (R32 to R35, R41). -/
theorem works_startHead (k : Fin 4) (hk : T k) : Works T s (s.startHead k).1 := by
  unfold State.startHead
  split
  · exact Works.refl T s
  · next st rest h =>
    have ht := (works_takeHead k st rest h hk).trans (works_startTaken (T := T) k st hk)
    dsimp only
    split
    · exact ht.trans (works_settle k _ _ hk)
    · exact ht

/-! ### The wait list -/

/-- The seats a task may touch of itself. -/
def Task.within (T : Fin 4 → Prop) : Task → Prop
  | .arbiter => True
  | .consider k => T k

/-- The last stages of an event touch the seats they consider and the seats on the wait list (R28, R31). -/
theorem works_runTasks (n : Nat) (ts : List Task) (hw : ∀ k ∈ s.waitList, T k) (ht : ∀ t ∈ ts, t.within T) :
    Works T s (s.runTasks n ts) := by
  induction n generalizing s ts with
  | zero => exact Works.refl T s
  | succ n ih =>
    have hnext : ∀ (t : State) (us : List Task), Works T s t → (∀ u ∈ us, u.within T) →
        Works T s (t.runTasks n us) := fun t us h hu =>
      h.trans (ih us (fun k hk => (h.waits k hk).elim (hw k) id) hu)
    have hafter : ∀ (k : Fin 4) (b : Bool), T k → ∀ u ∈ afterStart k b, u.within T := by
      intro k b hk u hu
      unfold afterStart at hu
      split at hu
      · simp only [List.mem_singleton] at hu; subst hu; exact hk
      · simp at hu
    match ts with
    | [] => exact Works.refl T s
    | .arbiter :: ts =>
      have hts : ∀ u ∈ ts, u.within T := fun u hu => ht u (List.mem_cons_of_mem _ hu)
      unfold State.runTasks
      split
      · exact hnext s ts (Works.refl T s) hts
      · next k rest h =>
        have hk : T k := hw k (by rw [h]; exact List.mem_cons_self)
        have hwait : Works T s { s with waitList := rest } :=
          works_waitList rest (fun j hj => Or.inl (by rw [h]; exact List.mem_cons_of_mem _ hj))
        split
        · refine hnext _ _ (hwait.trans (works_startHead k hk)) (fun u hu => ?_)
          rcases List.mem_append.mp hu with hu | hu
          · exact hafter k _ hk u hu
          · rcases List.mem_cons.mp hu with hu | hu
            · subst hu; exact trivial
            · exact hts u hu
        · exact hnext s ts (Works.refl T s) hts
    | .consider k :: ts =>
      have hts : ∀ u ∈ ts, u.within T := fun u hu => ht u (List.mem_cons_of_mem _ hu)
      have hk : T k := ht _ List.mem_cons_self
      unfold State.runTasks
      split
      · split
        · refine hnext _ _ (works_startHead k hk) (fun u hu => ?_)
          rcases List.mem_append.mp hu with hu | hu
          · exact hafter k _ hk u hu
          · exact hts u hu
        · refine hnext _ _ (works_waitList _ (fun j hj => ?_)) hts
          rcases List.mem_append.mp hj with hj | hj
          · exact Or.inl hj
          · simp only [List.mem_singleton] at hj; subst hj; exact Or.inr hk
      · exact hnext s ts (Works.refl T s) hts

theorem works_sequence (ts : List Task) (hw : ∀ k ∈ s.waitList, T k) (ht : ∀ t ∈ ts, t.within T) :
    Works T s (s.sequence ts) := works_runTasks _ ts hw ht

theorem works_arbitrate (hw : ∀ k ∈ s.waitList, T k) : Works T s s.arbitrate :=
  works_sequence _ hw (fun t h => by simp only [List.mem_singleton] at h; subst h; exact trivial)

/-- After work on seat `k` the last stages run: the same statement for the whole event. -/
theorem Works.sequenced {t : State} (h : Works T s t) (ts : List Task) (hw : ∀ k ∈ s.waitList, T k)
    (ht : ∀ t ∈ ts, t.within T) : Works T s (t.sequence ts) :=
  h.trans (works_sequence ts (fun k hk => (h.waits k hk).elim (hw k) id) ht)

theorem Works.arbitrated {t : State} (h : Works T s t) (hw : ∀ k ∈ s.waitList, T k) : Works T s t.arbitrate :=
  h.trans (works_arbitrate (fun k hk => (h.waits k hk).elim (hw k) id))

/-- The two tasks that follow the end of a step of seat `k`. -/
theorem arbiterThenConsider_within (k : Fin 4) (hk : T k) : ∀ t ∈ [Task.arbiter, Task.consider k], t.within T := by
  intro t h
  simp only [List.mem_cons, List.not_mem_nil, or_false] at h
  rcases h with h | h <;> subst h
  · exact trivial
  · exact hk

/-! ### Ends and aborts with what follows -/

theorem works_finishStep (k : Fin 4) (r : Running) (hk : T k) (hw : ∀ k ∈ s.waitList, T k) :
    Works T s (s.finishStep k r) :=
  ((works_endStep k r hk).trans (works_settle k _ _ hk)).sequenced _ hw (arbiterThenConsider_within k hk)

theorem works_afterReport (k : Fin 4) (r : Running) (hk : T k) (hw : ∀ k ∈ s.waitList, T k) :
    Works T s (s.afterReport k r) :=
  Works.ite (fun _ => (works_setRunning k _ hk).trans (works_finishStep k r hk hw)) (fun _ => works_setRunning k _ hk)

theorem works_deliverMeas (k : Fin 4) (i : Fin 2) (m : MeasReport) (hk : T k) (hw : ∀ k ∈ s.waitList, T k) :
    Works T s (s.deliverMeas k i m) := by
  unfold State.deliverMeas
  split
  · exact Works.refl T s
  · exact works_afterReport k _ hk hw

theorem works_deliverExpect (k : Fin 4) (e : ExpectReport) (hk : T k) (hw : ∀ k ∈ s.waitList, T k) :
    Works T s (s.deliverExpect k e) := by
  unfold State.deliverExpect
  split
  · exact Works.refl T s
  · exact works_afterReport k _ hk hw

theorem works_deliverPrompt (k : Fin 4) (p : PromptReport) (hk : T k) (hw : ∀ k ∈ s.waitList, T k) :
    Works T s (s.deliverPrompt k p) := by
  unfold State.deliverPrompt
  split
  · exact Works.refl T s
  · exact works_afterReport k _ hk hw

theorem works_expireWindow (k : Fin 4) (hk : T k) (hw : ∀ k ∈ s.waitList, T k) : Works T s (s.expireWindow k) := by
  unfold State.expireWindow
  split
  · exact Works.refl T s
  · exact works_finishStep k _ hk hw

theorem works_abortByPolicy (k : Fin 4) (c : Cause) (hk : T k) (hw : ∀ k ∈ s.waitList, T k) :
    Works T s (s.abortByPolicy k c) := by
  unfold State.abortByPolicy
  split
  · exact Works.refl T s
  · exact ((works_abortRunning k c hk).trans (works_settle k _ _ hk)).sequenced _ hw (arbiterThenConsider_within k hk)

/-- What follows a refused move (R83). -/
theorem works_handleRefusal (c : Fin 8) (hc : ∀ k, (s.channel c).seat = some k → T k) (hw : ∀ k ∈ s.waitList, T k) :
    Works T s (s.handleRefusal c) := by
  unfold State.handleRefusal
  split
  · exact Works.refl T s
  · next k h =>
    dsimp only
    split
    · exact ((works_freeChannel c).trans (works_postSeat k _)).arbitrated hw
    · exact works_abortByPolicy k _ (hc k h) hw

/-! ### Seat transitions -/

theorem works_enterTesting (k : Fin 4) (hk : T k) (hw : ∀ k ∈ s.waitList, T k) : Works T s (s.enterTesting k) := by
  have h := (works_enterState (s := s) k .testing none none hk (by decide) rfl).trans
    ((works_restOutputs (T := T) k).trans (works_eachFrame k (fun f => f.schedule
      ((s.enterState k .testing none none).restOutputs k).clock)))
  exact h.sequenced [.consider k] hw
    (fun t ht => by simp only [List.mem_singleton] at ht; subst ht; exact hk)

theorem works_haltSeat (k : Fin 4) (c : Cause) (hk : T k) : Works T s (s.haltSeat k c) :=
  (works_abortRunning k c hk).trans (works_leaveFor k _ _ hk (by decide) rfl)

/-- Entering FAULT (R8). -/
theorem works_faultSeat (k : Fin 4) (c : Cause) (hf : c.isFault = true) (hk : T k) (hw : ∀ k ∈ s.waitList, T k) :
    Works T s (s.faultSeat k c) := by
  have hmove : ∀ u : State, Works T u
      ((((u.setRecord k ((u.record k).enterFault c)).relamp k (u.effectiveLamp k)).restOutputs k).setQueue k []) :=
    fun u => (works_setRecord k _ hk (RecordMove.fault _ c hf) rfl rfl (fun x => by cases x <;> rfl)).trans
      ((works_relamp _ _).trans ((works_restOutputs k).trans (works_setQueue k [] List.nil_suffix hk)))
  unfold State.faultSeat
  split
  · exact Works.refl T s
  · by_cases ht : (s.record k).state = .testing
    · simp only [ht, if_true]
      exact ((works_abortRunning k c hk).trans ((works_leaveTesting k).trans
        ((hmove _).trans (works_postSeat k _)))).arbitrated hw
    · simp only [ht, if_false]
      exact (hmove s).trans (works_postSeat k _)

end Machine
end Sys2Proof
end

