-- ==== Sys2Proof/Laws/Bound.lean ====
section
/-! SUPPORT. The bound on the tasks that end an event cuts nothing off (log entry 13): no part of a step's start or
end puts a seat on the wait list, each task taken lowers the bound, and more room than the bound changes nothing. -/

namespace Sys2Proof
namespace Machine

variable {s : State}

/-! ### The wait list under a step's start and end -/

theorem foldl_waitList {α : Type} {f : State → α → State} (h : ∀ s a, (f s a).waitList = s.waitList) (xs : List α)
    (s : State) : (xs.foldl f s).waitList = s.waitList := by
  induction xs generalizing s with
  | nil => rfl
  | cons a xs ih => rw [List.foldl_cons, ih, h]

@[simp] theorem converterArbiter_waitList : s.converterArbiter.waitList = s.waitList := by
  unfold State.converterArbiter State.startConversion
  split
  · rfl
  · split
    · rfl
    · dsimp only
      split <;> rfl

@[simp] theorem openGate_waitList (m : Fin 6) : (s.openGate m).waitList = s.waitList := by
  unfold State.openGate
  dsimp only
  split
  · rw [converterArbiter_waitList]; rfl
  · rfl

@[simp] theorem openMarkGates_waitList (k : Fin 4) (e : Fin 3) : (s.openMarkGates k e).waitList = s.waitList := by
  unfold State.openMarkGates State.takeInOpenOrder
  split
  · rfl
  · exact openGate_waitList _
  · rw [foldl_waitList (fun s m => openGate_waitList (s := s) m)]; rfl

@[simp] theorem postSeat_waitList (k : Fin 4) (n : Notice) : (s.postSeat k n).waitList = s.waitList := by
  unfold State.postSeat State.postBoth State.post
  split <;> simp

@[simp] theorem openMarked_waitList (c : Fin 8) (k : Fin 4) : (s.openMarked c k).waitList = s.waitList := by
  unfold State.openMarked
  split
  · split <;> simp
  · rfl

@[simp] theorem raiseMark_waitList (c : Fin 8) (k : Fin 4) (p : Program) :
    (s.raiseMark c k p).waitList = s.waitList := by
  unfold State.raiseMark
  dsimp only
  split <;> simp

@[simp] theorem trigger_waitList (c : Fin 8) : (s.trigger c).waitList = s.waitList := by
  unfold State.trigger
  split <;> simp

@[simp] theorem chainFrom_waitList (k : Fin 4) (e : Fin 3) : (s.chainFrom k e).waitList = s.waitList :=
  foldl_waitList (fun s c => by split <;> simp) _ _

@[simp] theorem chainEnd_waitList (c : Fin 8) (k : Fin 4) : (s.chainEnd c k).waitList = s.waitList := by
  unfold State.chainEnd
  split
  · split <;> simp
  · rfl

@[simp] theorem endTransaction_waitList (c : Fin 8) (k : Fin 4) (p : Program) :
    (s.endTransaction c k p).waitList = s.waitList := by
  unfold State.endTransaction
  dsimp only
  split <;> simp

@[simp] theorem deliver_waitList (k : Fin 4) (t : Target) (n : Nat) (w : Word) :
    (s.deliver k t n w).waitList = s.waitList := by
  unfold State.deliver
  split <;> simp

@[simp] theorem makeMove_waitList (c : Fin 8) (k : Fin 4) (t : Target) (p : Program) :
    (s.makeMove c k t p).waitList = s.waitList := by
  unfold State.makeMove
  dsimp only
  split <;> split <;> simp

@[simp] theorem moveOnce_waitList (c : Fin 8) : (s.moveOnce c).1.waitList = s.waitList := by
  unfold State.moveOnce State.refuseMove
  split
  · rfl
  · split
    · split <;> simp
    · rfl

@[simp] theorem blockEnd_waitList (r : State × Bool) (c : Fin 8) (st : ChannelState) :
    (State.blockEnd r c st).1.waitList = r.1.waitList := by
  unfold State.blockEnd
  split <;> simp

@[simp] theorem takeTimer_waitList (c : Fin 8) : (s.takeTimer c).1.waitList = s.waitList := by
  unfold State.takeTimer State.triggerAndMove
  split <;> simp

@[simp] theorem firstTriggers_waitList (cs : List (Fin 8)) : (s.firstTriggers cs).1.waitList = s.waitList := by
  induction cs generalizing s with
  | nil => rfl
  | cons c cs ih =>
    unfold State.firstTriggers
    split
    · split
      · simp
      · rw [ih]; simp
    · exact ih

@[simp] theorem freeChannel_waitList (c : Fin 8) : (s.freeChannel c).waitList = s.waitList := by
  unfold State.freeChannel State.restTarget State.unuseBy State.unuseProgram
  split <;> split <;> simp

@[simp] theorem freeSlot_waitList (m : Fin 6) : (s.freeSlot m).waitList = s.waitList := by
  unfold State.freeSlot State.unuseLimit
  split <;> simp

@[simp] theorem freeChannels_waitList (cs : List (Fin 8)) : (s.freeChannels cs).waitList = s.waitList :=
  foldl_waitList (fun s c => freeChannel_waitList (s := s) c) _ _

@[simp] theorem freeSlots_waitList (ms : List (Fin 6)) : (s.freeSlots ms).waitList = s.waitList :=
  foldl_waitList (fun s m => freeSlot_waitList (s := s) m) _ _

@[simp] theorem editRunning_waitList (k : Fin 4) (f : Running → Running) : (s.editRunning k f).waitList = s.waitList := by
  unfold State.editRunning
  split <;> simp

@[simp] theorem bindEntry_waitList (k : Fin 4) (x : Fin 3 × ChannelEntry) : (bindEntry k s x).waitList = s.waitList := by
  unfold bindEntry State.bindChannel State.useProgram
  split
  · rfl
  · split <;> simp

@[simp] theorem bindSlot_waitList (m : Fin 6) (k : Fin 4) (i : Fin 2) (x : Measurement) (t : RackTime) (w : Nat) :
    (s.bindSlot m k i x t w).waitList = s.waitList := by
  unfold State.bindSlot State.useLimit
  dsimp only
  split
  · rw [openGate_waitList]; rfl
  · rfl

@[simp] theorem bindMeasurement_waitList (k : Fin 4) (w : Nat) (x : Fin 2 × Measurement) :
    (bindMeasurement k w s x).waitList = s.waitList := by
  unfold bindMeasurement
  split <;> simp

@[simp] theorem relamp_waitList (k : Fin 4) (m : LampMode) : (s.relamp k m).waitList = s.waitList := by
  unfold State.relamp State.restartLamp
  split <;> simp

@[simp] theorem showRam_waitList : s.showRam.waitList = s.waitList := by
  obtain ⟨ls, h, -⟩ := leaveSaver_eq s
  unfold State.showRam
  rw [h]

@[simp] theorem openPrompt_waitList (k : Fin 4) (pr : Prompt) : (s.openPrompt k pr).waitList = s.waitList := by
  unfold State.openPrompt State.copyPane
  simp

@[simp] theorem bindStep_waitList (k : Fin 4) (st : Step) : (s.bindStep k st).waitList = s.waitList := by
  have h1 : ∀ u : State, (u.freeReplaced k st).waitList = u.waitList := by
    intro u; unfold State.freeReplaced; split <;> simp
  have h2 : ∀ u : State, (u.bindEntries k st).waitList = u.waitList := fun u =>
    foldl_waitList (fun s x => bindEntry_waitList (s := s) k x) _ _
  have h3 : ∀ u : State, (u.bindMeasurements k st).waitList = u.waitList := fun u =>
    foldl_waitList (fun s x => bindMeasurement_waitList (s := s) k _ x) _ _
  have h4 : ∀ u : State, (u.startExpectation k st).waitList = u.waitList := by
    intro u; unfold State.startExpectation; split <;> simp
  have h5 : ∀ u : State, (u.startPrompt k st).waitList = u.waitList := by
    intro u; unfold State.startPrompt; split <;> simp
  unfold State.bindStep
  rw [h5, h4, h3, h2, h1]

@[simp] theorem closePrompt_waitList (k : Fin 4) : (s.closePrompt k).waitList = s.waitList := by
  unfold State.closePrompt; simp

@[simp] theorem recordResult_waitList (k : Fin 4) (e : ResultEntry) : (s.recordResult k e).waitList = s.waitList := by
  unfold State.recordResult; simp

@[simp] theorem abortRunning_waitList (k : Fin 4) (c : Cause) : (s.abortRunning k c).waitList = s.waitList := by
  unfold State.abortRunning State.clearRunning State.stopExpectation
  split <;> simp

@[simp] theorem startTaken_waitList (k : Fin 4) (st : Step) : (s.startTaken k st).1.waitList = s.waitList := by
  unfold State.startTaken
  split
  · simp
  · split
    · simp
    · dsimp only
      split <;> simp

/-- What a step's end or an abort does to its seat takes seats off the wait list only (R9, R41). -/
theorem settle_waitList (k : Fin 4) (o : StepOutcome) (p : FailPolicy) :
    (s.settle k o p).waitList.length ≤ s.waitList.length := by
  have h : ∀ (u : State) (st : SeatState) (n : Option Nat), (u.leaveFor k st n).waitList.length ≤ u.waitList.length := by
    intro u st n
    have hf : ∀ v : State, (v.unscheduleFrames k).waitList = v.waitList := fun v =>
      foldl_waitList (fun s f => by simp) _ _
    unfold State.leaveFor State.enterState State.moveSeat State.postState State.leaveTesting State.unwait
    simp only [postSeat_waitList, relamp_waitList, setRecord_keeps, hf, State.restOutputs, setOutputs_keeps,
      freeSlots_waitList, freeChannels_waitList]
    exact List.length_filter_le _ _
  unfold State.settle
  split
  · exact (h _ _ _).trans (by simp)
  · split
    · exact h _ _ _
    · exact le_rfl

/-! ### The bound -/

theorem queuedSteps_le {t : State} (h : ∀ k, (t.seat k).queue.length ≤ (s.seat k).queue.length) :
    t.queuedSteps ≤ s.queuedSteps := by
  have h0 := h 0
  have h1 := h 1
  have h2 := h 2
  have h3 := h 3
  simp only [State.queuedSteps, seatIds, List.map_cons, List.map_nil, List.sum_cons, List.sum_nil]
  omega

theorem queuedSteps_lt {t : State} (k : Fin 4) (h : ∀ j, (t.seat j).queue.length ≤ (s.seat j).queue.length)
    (hk : (t.seat k).queue.length < (s.seat k).queue.length) : t.queuedSteps < s.queuedSteps := by
  have h0 := h 0
  have h1 := h 1
  have h2 := h 2
  have h3 := h 3
  simp only [State.queuedSteps, seatIds, List.map_cons, List.map_nil, List.sum_cons, List.sum_nil]
  match k with
  | 0 => omega
  | 1 => omega
  | 2 => omega
  | 3 => omega

/-- A start puts no seat on the wait list, and unless it does nothing it uses up a queued step (R32). -/
theorem startHead_measure (k : Fin 4) :
    (s.startHead k).1.waitList.length ≤ s.waitList.length ∧
      (s.startHead k = (s, false) ∨ (s.startHead k).1.queuedSteps < s.queuedSteps) := by
  unfold State.startHead
  split
  · exact ⟨le_rfl, Or.inl rfl⟩
  · next st rest hq =>
    have hs : ∀ j, ((s.takeHead k st rest).seat j).queue.length ≤ (s.seat j).queue.length := fun j =>
      ((works_takeHead (T := fun _ => True) k st rest hq trivial).queue j).length_le
    have hlt : (s.takeHead k st rest).queuedSteps < s.queuedSteps := by
      refine queuedSteps_lt k hs ?_
      rw [hq]
      simp [State.takeHead]
    have hw : (s.takeHead k st rest).waitList = s.waitList := by simp [State.takeHead]
    have h1 := works_startTaken (T := fun _ => True) (s := s.takeHead k st rest) k st trivial
    have h2 := startTaken_waitList (s := s.takeHead k st rest) k st
    dsimp only
    split
    · have h3 := works_settle (T := fun _ => True) (s := ((s.takeHead k st rest).startTaken k st).1) k .aborted st.policy
        trivial
      refine ⟨(settle_waitList k _ _).trans (by rw [h2, hw]), Or.inr (lt_of_le_of_lt ?_ hlt)⟩
      exact queuedSteps_le (fun j => ((h1.trans h3).queue j).length_le)
    · exact ⟨by rw [h2, hw], Or.inr (lt_of_le_of_lt (queuedSteps_le (fun j => (h1.queue j).length_le)) hlt)⟩

theorem afterStart_length (k : Fin 4) (b : Bool) : (afterStart k b).length ≤ 1 := by cases b <;> simp [afterStart]

/-- The bound cuts nothing off: with at least as many tasks allowed as it says, more change nothing. -/
theorem runTasks_bound (n : Nat) : ∀ (m : Nat) (ts : List Task) (s : State), s.taskBound ts ≤ n → s.taskBound ts ≤ m →
    s.runTasks n ts = s.runTasks m ts := by
  induction n with
  | zero =>
    intro m ts s hn hm
    have : ts = [] := by
      cases ts with
      | nil => rfl
      | cons t ts => simp [State.taskBound] at hn
    subst this
    cases m <;> rfl
  | succ n ih =>
    intro m ts s hn hm
    match ts, m with
    | [], 0 => rfl
    | [], m + 1 => rfl
    | t :: ts, 0 => simp [State.taskBound] at hm
    | .arbiter :: ts, m + 1 =>
      unfold State.runTasks
      split
      · refine ih m ts s ?_ ?_ <;> (simp only [State.taskBound, List.length_cons] at *; omega)
      · next k rest h =>
        split
        · have hb := startHead_measure (s := { s with waitList := rest }) k
          have hq : State.queuedSteps { s with waitList := rest } = s.queuedSteps := rfl
          have hl : s.waitList.length = rest.length + 1 := by rw [h]; rfl
          have hlt : (State.startHead { s with waitList := rest } k).1.taskBound
              (afterStart k (State.startHead { s with waitList := rest } k).2 ++ Task.arbiter :: ts) <
              s.taskBound (Task.arbiter :: ts) := by
            rcases hb with ⟨h1, h2 | h2⟩
            · rw [h2]
              simp only [State.taskBound, afterStart, List.length_append, List.length_cons, hl, hq]
              simp
            · have h3 := afterStart_length k (State.startHead { s with waitList := rest } k).2
              rw [hq] at h2
              simp only [State.taskBound, List.length_append, List.length_cons, hl] at *
              omega
          exact ih m _ _ (by omega) (by omega)
        · refine ih m ts s ?_ ?_ <;> (simp only [State.taskBound, List.length_cons] at *; omega)
    | .consider k :: ts, m + 1 =>
      unfold State.runTasks
      split
      · split
        · have hlt : (s.startHead k).1.taskBound (afterStart k (s.startHead k).2 ++ ts) <
              s.taskBound (Task.consider k :: ts) := by
            rcases startHead_measure (s := s) k with ⟨h1, h2 | h2⟩
            · rw [h2]
              simp only [State.taskBound, afterStart, List.length_append, List.length_cons]
              simp
            · have h3 := afterStart_length k (s.startHead k).2
              simp only [State.taskBound, List.length_append, List.length_cons] at *
              omega
          exact ih m _ _ (by omega) (by omega)
        · have hj : (s.joinWait k).taskBound ts < s.taskBound (Task.consider k :: ts) := by
            have : (s.joinWait k).queuedSteps = s.queuedSteps := rfl
            simp only [State.taskBound, State.joinWait, List.length_append, List.length_cons, List.length_nil] at *
            omega
          exact ih m _ _ (by omega) (by omega)
      · refine ih m ts s ?_ ?_ <;> (simp only [State.taskBound, List.length_cons] at *; omega)

/-- The tasks taken are all there are (R31, R194; log entry 13). -/
theorem sequence_complete (ts : List Task) (n : Nat) (h : s.taskBound ts ≤ n) : s.runTasks n ts = s.sequence ts :=
  runTasks_bound n _ ts s h le_rfl

end Machine
end Sys2Proof
end

