-- ==== Sys2Proof/Laws/Commands.lean ====
section
/-! SUPPORT. What a link command and an event answer, said once: the checks every command passes, the operand bytes
of a value in range, a due or not due event, and the permutation behind an order the spec leaves open. -/

namespace Sys2Proof
namespace Machine

variable {p : Port} {s : State}

/-! ### The checks of a command (R178) -/

theorem State.takes.open (h : s.takes p) : s.linkOpen p = true := h.1

theorem State.takes.ready (h : s.takes p) : s.isReady = true := h.2

theorem command_closed (h : s.linkOpen p = false) (body : State × Answer) : command p s body = .next s := by
  simp [command, h]

theorem command_notReady (ho : s.linkOpen p = true) (hr : s.isReady = false) (body : State × Answer) :
    command p s body = answered s p .notReady [] := by
  simp [command, ho, hr, answered]

theorem command_taken (h : s.takes p) (body : State × Answer) : command p s body = .next (body.1.answer p body.2) := by
  simp [command, h.1, h.2]

theorem command_taken_pair (h : s.takes p) (t : State) (st : Status) (bytes : List Byte) :
    command p s (t, { status := st, result := bytes }) = answered t p st bytes := by
  simp [command_taken h, answered]

@[simp] theorem withArg_none {α : Type} (body : α → State × Answer) :
    withArg s none body = (s, { status := .badParam, result := [] }) := rfl

@[simp] theorem withArg_some {α : Type} (x : α) (body : α → State × Answer) : withArg s (some x) body = body x := rfl

theorem ifOwner_owner {k : Fin 4} (h : (s.record k).owner = some p) (body : State × Answer) :
    ifOwner s p k body = body := by simp [ifOwner, h]

theorem ifOwner_other {k : Fin 4} (h : (s.record k).owner ≠ some p) (body : State × Answer) :
    ifOwner s p k body = (s, { status := .notOwner, result := [] }) := by simp [ifOwner, h, refuse]

theorem ifOwnerOrFree_taken {k : Fin 4} (h : (s.record k).owner ≠ some (otherPort p)) (body : State × Answer) :
    ifOwnerOrFree s p k body = body := by simp [ifOwnerOrFree, h]

theorem ifOwnerOrFree_other {k : Fin 4} (h : (s.record k).owner = some (otherPort p)) (body : State × Answer) :
    ifOwnerOrFree s p k body = (s, { status := .notOwner, result := [] }) := by simp [ifOwnerOrFree, h, refuse]

@[simp] theorem require_true (st : Status) (body : State × Answer) : require s true st body = body := rfl

@[simp] theorem require_false (st : Status) (body : State × Answer) :
    require s false st body = (s, { status := st, result := [] }) := rfl

theorem ne_otherPort {o : Option Port} (h : o = some p) : o ≠ some (otherPort p) := by
  subst h; cases p <;> simp [otherPort]

/-! ### Events -/

@[simp] theorem whenDue_true (t : State) : whenDue s true t = .next t := rfl

@[simp] theorem whenDue_false (t : State) : whenDue s false t = .next s := rfl

/-! ### Operand bytes of values in range (R180) -/

theorem byteOf_toNat {n : Nat} (h : n < 256) : (byteOf n).toNat = n := by
  simp only [byteOf, BitVec.toNat_ofNat]; omega

theorem byteOf_toNat_self (b : Byte) : byteOf b.toNat = b := by simp [byteOf]

theorem finArg_byteOf {n : Nat} (h : n ≤ 256) (k : Fin n) : finArg n (byteOf k.val) = some k := by
  have hk : (byteOf k.val).toNat = k.val := byteOf_toNat (by omega)
  simp [finArg, hk]

theorem finArg_none {n : Nat} {b : Byte} (h : n ≤ b.toNat) : finArg n b = none := by
  simp [finArg, Nat.not_lt.mpr h]

theorem indexArg_byteOf {n : Nat} (h : n ≤ 256) (k : Fin n) : indexArg n [byteOf k.val] = some k := finArg_byteOf h k

theorem indexPairArg_byteOf {n m : Nat} (hn : n ≤ 256) (hm : m ≤ 256) (k : Fin n) (f : Fin m) :
    indexPairArg n m [byteOf k.val, byteOf f.val] = some (k, f) := by
  simp [indexPairArg, finArg_byteOf hn, finArg_byteOf hm]

theorem indexArg_none {n : Nat} {ps : List Byte} (h : ∀ b, ps = [b] → n ≤ b.toNat) : indexArg n ps = none := by
  match ps with
  | [] => rfl
  | [b] => exact finArg_none (h b rfl)
  | _ :: _ :: _ => rfl

theorem noArg_none {ps : List Byte} (h : ps ≠ []) : noArg ps = none := by
  cases ps with
  | nil => exact absurd rfl h
  | cons => rfl

theorem flagArg_ite (b : Bool) : flagArg (if b then 1 else 0) = some b := by cases b <;> rfl

theorem word16_toNat (lo hi : Byte) : (word16 lo hi).toNat = lo.toNat + 256 * hi.toNat := by
  simp only [word16, BitVec.toNat_append]
  have := lo.isLt
  rw [Nat.shiftLeft_eq, Nat.mul_comm, ← Nat.two_pow_add_eq_or_of_lt (by omega)]
  omega

/-- A number spelled low byte first is read back. -/
theorem word16_bytes (n : Nat) : word16 (byteOf n) (byteOf (n / 256)) = BitVec.ofNat 16 n := by
  apply BitVec.eq_of_toNat_eq
  simp only [word16_toNat, byteOf, BitVec.toNat_ofNat]
  omega

theorem word16_bytes_toNat {n : Nat} (h : n < 65536) : (word16 (byteOf n) (byteOf (n / 256))).toNat = n := by
  rw [word16_bytes, BitVec.toNat_ofNat]; omega

/-! ### Orders the spec leaves open -/

/-- An open order takes every element, and no other, once. -/
theorem shuffle_perm {α : Type} : ∀ (n : Nat) (xs : List α), (shuffle xs.length n xs).Perm xs := by
  suffices h : ∀ (f n : Nat) (xs : List α), (shuffle f n xs).Perm xs from fun n xs => h _ n xs
  intro f
  induction f with
  | zero => intro n xs; simp [shuffle]
  | succ f ih =>
    intro n xs
    match xs with
    | [] => simp [shuffle]
    | [x] => simp [shuffle]
    | x :: y :: rest =>
      have hlt : Config.freeChoice n % (x :: y :: rest).length < (x :: y :: rest).length :=
        Nat.mod_lt _ (by simp)
      simp only [shuffle, List.getElem?_eq_getElem hlt]
      exact ((ih _ _).cons _).trans (List.getElem_cons_eraseIdx_perm hlt)

theorem inOpenOrder_perm {α : Type} (s : State) (xs : List α) : (s.inOpenOrder xs).Perm xs := shuffle_perm _ xs

end Machine
end Sys2Proof
end

