-- ==== Sys2Proof/Laws/Invariants.lean ====
section
/-! SUPPORT. Each invariant of Safety.lean is kept by everything `Works` allows; a proof that a step keeps one needs
only the operations that lie outside `Works` beside these. -/

namespace Sys2Proof
namespace Machine

open Relation

variable {T : Fin 4 → Prop} {s t : State}

/-! ### Ports -/

theorem judgeAttn_iff (queue : List Notice) (th : Fin 16) :
    judgeAttn queue th = true ↔ ∃ n ∈ queue, th < n.level := by
  simp [judgeAttn]

/-- Posting a notice keeps a port record lawful (R175, R183, R186). -/
theorem PortRecord.Lawful.post {r : PortRecord} (h : r.Lawful) (n : Notice) : (r.post n).Lawful := by
  unfold PortRecord.post
  dsimp only
  split
  · exact h
  · next hl =>
    split
    · next hq =>
      refine ⟨?_, ?_, judgeAttn_iff _ _, h.between⟩
      · simp only [List.length_append, List.length_cons, List.length_nil]; omega
      · intro m hm
        rcases List.mem_append.mp hm with hm | hm
        · exact h.level m hm
        · simp only [List.mem_singleton] at hm; subst hm; exact hl
    · exact ⟨h.length, h.level, judgeAttn_iff _ _, h.between⟩

theorem PortRecord.Lawful.posted {r q : PortRecord} (h : r.Lawful) (g : Posted r q) : q.Lawful := by
  induction g with
  | refl => exact h
  | tail _ x ih => obtain ⟨n, rfl⟩ := x; exact ih.post n

theorem Works.portsLawful (h : Works T s t) (i : s.PortsLawful) : t.PortsLawful := fun p => (i p).posted (h.ports p)

/-! ### Seat records -/

theorem SeatRecord.Lawful.enter (r : SeatRecord) (st : SeatState) (d : Option RackTime) (hst : st ≠ .fault)
    (hd : d.isSome = st.timed) : (r.enter st d).Lawful :=
  ⟨rfl, fun _ => rfl, fun _ => rfl, fun e => absurd e hst, hd⟩

theorem SeatRecord.Lawful.enterFault (r : SeatRecord) (c : Cause) (hc : c.isFault = true) : (r.enterFault c).Lawful :=
  ⟨rfl, fun e => absurd rfl e, fun e => absurd rfl e, fun _ => ⟨c, rfl, hc, rfl⟩, rfl⟩

theorem SeatRecord.Lawful.move {r q : SeatRecord} (h : r.Lawful) (g : RecordMove r q) : q.Lawful := by
  cases g with
  | edit r' hs hc ha hp hd =>
    exact ⟨by rw [hp, hs]; exact h.supply, by rw [hs, ha]; exact h.actuator, by rw [hs, hc]; exact h.noCause,
      by rw [hs, hc, ha]; exact h.fault, by rw [hd, hs]; exact h.deadline⟩
  | enter st d hst hd => exact SeatRecord.Lawful.enter _ st d hst hd
  | fault c hc => exact SeatRecord.Lawful.enterFault _ c hc

theorem SeatRecord.Lawful.moves {r q : SeatRecord} (h : r.Lawful) (g : RecordMoves r q) : q.Lawful := by
  induction g with
  | refl => exact h
  | tail _ x ih => exact ih.move x

theorem Works.seatsLawful (h : Works T s t) (i : s.SeatsLawful) : t.SeatsLawful := fun k => (i k).moves (h.records k)

/-! ### The panel and the memories -/

theorem Works.saverLawful (h : Works T s t) (i : s.SaverLawful) : t.SaverLawful := by
  unfold State.SaverLawful at i ⊢
  rcases h.panel with ⟨hd, ha, hs⟩ | ⟨hd, ha, hs⟩
  · rw [hd, ha, hs]; exact i
  · rw [hd, ha, hs]; simp

theorem Works.memoriesCanonical (h : Works T s t) (i : s.MemoriesCanonical) : t.MemoriesCanonical :=
  ⟨by rw [h.pattern]; exact i.1, by rw [h.eeprom]; exact i.2.1, h.ram i.2.2⟩

/-! ### Lists -/

theorem Summary.worse_ne_none (a : Summary) (o : StepOutcome) : a.worse o.summaryClass ≠ .none := by
  cases a <;> cases o <;> decide

/-- Appending an entry keeps a result store lawful (R166, R168). -/
theorem ResultStore.Lawful.append {r : ResultStore} (h : r.Lawful) (e : ResultEntry) : (r.append e).Lawful := by
  unfold ResultStore.append
  dsimp only
  split
  · next hl =>
    refine ⟨?_, ?_⟩
    · simp only [List.length_append, List.length_cons, List.length_nil]; omega
    · simp [Summary.worse_ne_none]
  · next hl =>
    refine ⟨h.length, ?_⟩
    have hne : r.entries ≠ [] := fun x => hl (by rw [x]; decide)
    simp [Summary.worse_ne_none, hne]

theorem ResultStore.Lawful.appended {r q : ResultStore} (h : r.Lawful) (g : Appended r q) : q.Lawful := by
  induction g with
  | refl => exact h
  | tail _ x ih => obtain ⟨e, rfl⟩ := x; exact ih.append e

theorem Works.listsBounded (h : Works T s t) (i : s.ListsBounded) : t.ListsBounded := fun k =>
  ⟨(h.queue k).length_le.trans (i k).1, (congrArg List.length (h.captured k)).le.trans (i k).2.1, (i k).2.2.appended (h.results k)⟩

/-! ### Use counts -/

theorem ids8_nodup : ids8.Nodup := by decide

theorem mem_ids8 (c : Fin 8) : c ∈ ids8 := by revert c; decide

theorem slotIds_nodup : slotIds.Nodup := by decide

theorem mem_slotIds (m : Fin 6) : m ∈ slotIds := by revert m; decide

/-- Two predicates that differ at one member of a list only, counted. -/
theorem countP_one_more {α : Type} [DecidableEq α] {xs : List α} (hx : xs.Nodup) {c : α} (hc : c ∈ xs)
    {p q : α → Bool} (h : ∀ j, j ≠ c → q j = p j) (hp : p c = false) (hq : q c = true) :
    xs.countP q = xs.countP p + 1 := by
  induction xs with
  | nil => simp at hc
  | cons x xs ih =>
    by_cases e : x = c
    · subst e
      have hn : x ∉ xs := (List.nodup_cons.mp hx).1
      have : xs.countP q = xs.countP p :=
        List.countP_congr (fun j hj => by rw [h j (fun e => hn (e ▸ hj))])
      rw [List.countP_cons_of_pos hq, List.countP_cons_of_neg (by simp [hp]), this]
    · have hc' : c ∈ xs := by
        rcases List.mem_cons.mp hc with hc | hc
        · exact absurd hc.symm e
        · exact hc
      have := ih (List.nodup_cons.mp hx).2 hc'
      rw [List.countP_cons, List.countP_cons, this, h x e]
      omega

/-- Whether a channel record runs a program. -/
def Channel.runs (i : Fin 48) (x : Channel) : Bool := x.state ≠ .free ∧ x.program = some i

/-- The channels of a pool that run a program. -/
def Pool.running (x : Pool) (i : Fin 48) : Nat := ids8.countP (fun c => x.1[c].runs i)

/-- `State.ProgramsCounted`, said of a pool. -/
structure Pool.Counted (x : Pool) : Prop where
  free : ∀ c : Fin 8, x.1[c].state = .free → x.1[c].program = none
  uses : ∀ i : Fin 48, x.2[i].uses = Pool.running x i

theorem programsCounted_iff (s : State) : s.ProgramsCounted ↔ Pool.Counted (s.channels, s.programs) := by
  have h : ∀ i, s.running i = Pool.running (s.channels, s.programs) i := fun i => by
    unfold State.running Pool.running Channel.runs
    rw [List.countP_eq_length_filter]; rfl
  constructor
  · intro ⟨a, b⟩; exact ⟨a, fun i => (b i).trans (h i)⟩
  · intro ⟨a, b⟩; exact ⟨a, fun i => (b i).trans (h i).symm⟩

theorem get_set_same {α : Type} {n : Nat} (v : Vector α n) (c : Fin n) (x : α) : (v.set c x)[c] = x := by simp

theorem get_set_other {α : Type} {n : Nat} (v : Vector α n) {c d : Fin n} (x : α) (h : d ≠ c) : (v.set c x)[d] = v[d] := by
  have : (c : Nat) ≠ d := fun e => h (Fin.ext e.symm)
  simp [this]

/-- A changed record that runs what the old one ran changes no count. -/
theorem Pool.running_edit (cs : Vector Channel 8) (ps qs : Vector ProgramEntry 48) (c : Fin 8) (x : Channel) (i : Fin 48)
    (h : x.runs i = cs[c].runs i) : Pool.running (cs.set c x, qs) i = Pool.running (cs, ps) i := by
  unfold Pool.running
  refine List.countP_congr (fun d _ => ?_)
  by_cases e : d = c
  · subst e; simp only [get_set_same, h]
  · simp only [get_set_other _ _ e]

/-- A record that comes to run a program adds one. -/
theorem Pool.running_more (cs : Vector Channel 8) (ps qs : Vector ProgramEntry 48) (c : Fin 8) (x : Channel) (i : Fin 48)
    (ho : cs[c].runs i = false) (hn : x.runs i = true) :
    Pool.running (cs.set c x, qs) i = Pool.running (cs, ps) i + 1 := by
  unfold Pool.running
  refine countP_one_more ids8_nodup (mem_ids8 c) (fun d e => ?_) ho ?_
  · simp only [get_set_other _ _ e]
  · simp only [get_set_same, hn]

/-- A record that ceases to run a program takes one away. -/
theorem Pool.running_less (cs : Vector Channel 8) (ps qs : Vector ProgramEntry 48) (c : Fin 8) (x : Channel) (i : Fin 48)
    (ho : cs[c].runs i = true) (hn : x.runs i = false) :
    Pool.running (cs, ps) i = Pool.running (cs.set c x, qs) i + 1 := by
  unfold Pool.running
  refine countP_one_more ids8_nodup (mem_ids8 c) (fun d e => ?_) ?_ ho
  · simp only [get_set_other _ _ e]
  · simp only [get_set_same, hn]

theorem runs_of_free {x : Channel} (h : x.state = .free) (i : Fin 48) : x.runs i = false := by simp [Channel.runs, h]

theorem runs_of_other {x : Channel} {i : Fin 48} (h : x.program ≠ some i) : x.runs i = false := by simp [Channel.runs, h]

theorem runs_of_bound {x : Channel} {i : Fin 48} (hs : x.state ≠ .free) (hp : x.program = some i) : x.runs i = true := by
  simp [Channel.runs, hs, hp]

theorem Pool.Counted.move {x y : Pool} (h : Pool.Counted x) (g : PoolMove x y) : Pool.Counted y := by
  cases g with
  | edit cs ps c a hp hs =>
    refine ⟨fun d => ?_, fun i => (h.uses i).trans (Pool.running_edit cs ps ps c a i ?_).symm⟩
    · by_cases e : d = c
      · subst e; simp only [get_set_same, hs, hp]; exact h.free d
      · simp only [get_set_other _ _ e]; exact h.free d
    · simp [Channel.runs, hp, hs]
  | bind cs ps c a i hf hs hp =>
    refine ⟨fun d => ?_, fun j => ?_⟩
    · by_cases e : d = c
      · subst e; simp only [get_set_same]; exact fun e => absurd e hs
      · simp only [get_set_other _ _ e]; exact h.free d
    · by_cases e : j = i
      · subst e
        simp only [get_set_same]
        rw [Pool.running_more cs ps _ c a j (runs_of_free hf j) (by simp [Channel.runs, hs, hp])]
        exact congrArg (· + 1) (h.uses j)
      · simp only [get_set_other _ _ e]
        rw [Pool.running_edit cs ps _ c a j]
        · exact h.uses j
        · rw [runs_of_free hf]
          simp [Channel.runs, hp, Ne.symm e]
  | free cs ps c =>
    have hfree : ∀ (qs : Vector ProgramEntry 48) (d : Fin 8), ((cs.set c Channel.free, qs) : Pool).1[d].state = .free →
        ((cs.set c Channel.free, qs) : Pool).1[d].program = none := fun qs d => by
      by_cases e : d = c
      · subst e; simp only [get_set_same]; intro _; rfl
      · simp only [get_set_other _ _ e]; exact h.free d
    have hr : ∀ i, Channel.free.runs i = false := fun i => runs_of_free rfl i
    split
    · next hn =>
      refine ⟨hfree _, fun i => ?_⟩
      rw [Pool.running_edit cs ps ps c _ i]
      · exact h.uses i
      · rw [hr, runs_of_other (by rw [hn]; simp)]
    · next i hi =>
      have hc : cs[c].state ≠ .free := fun e => by
        have := h.free c e
        simp only [hi] at this
        exact absurd this (by simp)
      refine ⟨hfree _, fun j => ?_⟩
      by_cases e : j = i
      · subst e
        have := Pool.running_less cs ps (ps.set j { ps[j] with uses := ps[j].uses - 1 }) c Channel.free j
          (runs_of_bound hc hi) (hr j)
        have hu : ps[j].uses = Pool.running (cs, ps) j := h.uses j
        simp only [get_set_same]
        exact (congrArg (· - 1) (hu.trans this)).trans (Nat.add_sub_cancel _ _)
      · simp only [get_set_other _ _ e]
        rw [Pool.running_edit cs ps _ c _ j]
        · exact h.uses j
        · rw [hr, runs_of_other (by rw [hi]; simpa using Ne.symm e)]

theorem Pool.Counted.moves {x y : Pool} (h : Pool.Counted x) (g : PoolMoves x y) : Pool.Counted y := by
  induction g with
  | refl => exact h
  | tail _ x ih => exact ih.move x

theorem Works.programsCounted (h : Works T s t) (i : s.ProgramsCounted) : t.ProgramsCounted :=
  (programsCounted_iff t).mpr (((programsCounted_iff s).mp i).moves h.pool)

/-- Whether a slot record is bound under a limit. -/
def MeasSlot.judges (i : Fin 256) (x : MeasSlot) : Bool := x.state ≠ .free ∧ x.limit = some i

/-- The slots of a pool that are bound under a limit. -/
def SlotPool.judging (x : SlotPool) (i : Fin 256) : Nat := slotIds.countP (fun m => x.1[m].judges i)

/-- `State.LimitsCounted`, said of the slots and limits. -/
structure SlotPool.Counted (x : SlotPool) : Prop where
  free : ∀ m : Fin 6, x.1[m].state = .free → x.1[m].limit = none
  uses : ∀ i : Fin 256, x.2[i].uses = SlotPool.judging x i

theorem limitsCounted_iff (s : State) : s.LimitsCounted ↔ SlotPool.Counted (s.slots, s.limits) := by
  have h : ∀ i, s.judging i = SlotPool.judging (s.slots, s.limits) i := fun i => by
    unfold State.judging SlotPool.judging MeasSlot.judges
    rw [List.countP_eq_length_filter]; rfl
  constructor
  · intro ⟨a, b⟩; exact ⟨a, fun i => (b i).trans (h i)⟩
  · intro ⟨a, b⟩; exact ⟨a, fun i => (b i).trans (h i).symm⟩

/-- A changed record that is bound under what the old one was changes no count. -/
theorem SlotPool.judging_edit (ms : Vector MeasSlot 6) (ls qs : Vector LimitEntry 256) (m : Fin 6) (x : MeasSlot)
    (i : Fin 256) (h : x.judges i = ms[m].judges i) :
    SlotPool.judging (ms.set m x, qs) i = SlotPool.judging (ms, ls) i := by
  unfold SlotPool.judging
  refine List.countP_congr (fun d _ => ?_)
  by_cases e : d = m
  · subst e; simp only [get_set_same, h]
  · simp only [get_set_other _ _ e]

/-- A record that comes to be bound under a limit adds one. -/
theorem SlotPool.judging_more (ms : Vector MeasSlot 6) (ls qs : Vector LimitEntry 256) (m : Fin 6) (x : MeasSlot)
    (i : Fin 256) (ho : ms[m].judges i = false) (hn : x.judges i = true) :
    SlotPool.judging (ms.set m x, qs) i = SlotPool.judging (ms, ls) i + 1 := by
  unfold SlotPool.judging
  refine countP_one_more slotIds_nodup (mem_slotIds m) (fun d e => ?_) ho ?_
  · simp only [get_set_other _ _ e]
  · simp only [get_set_same, hn]

/-- A record that ceases to be bound under a limit takes one away. -/
theorem SlotPool.judging_less (ms : Vector MeasSlot 6) (ls qs : Vector LimitEntry 256) (m : Fin 6) (x : MeasSlot)
    (i : Fin 256) (ho : ms[m].judges i = true) (hn : x.judges i = false) :
    SlotPool.judging (ms, ls) i = SlotPool.judging (ms.set m x, qs) i + 1 := by
  unfold SlotPool.judging
  refine countP_one_more slotIds_nodup (mem_slotIds m) (fun d e => ?_) ?_ ho
  · simp only [get_set_other _ _ e]
  · simp only [get_set_same, hn]

theorem judges_of_free {x : MeasSlot} (h : x.state = .free) (i : Fin 256) : x.judges i = false := by
  simp [MeasSlot.judges, h]

theorem judges_of_other {x : MeasSlot} {i : Fin 256} (h : x.limit ≠ some i) : x.judges i = false := by
  simp [MeasSlot.judges, h]

theorem judges_of_bound {x : MeasSlot} {i : Fin 256} (hs : x.state ≠ .free) (hp : x.limit = some i) :
    x.judges i = true := by
  simp [MeasSlot.judges, hs, hp]

theorem SlotPool.Counted.move {x y : SlotPool} (h : SlotPool.Counted x) (g : SlotMove x y) : SlotPool.Counted y := by
  cases g with
  | edit ms ls m a hp hs =>
    refine ⟨fun d => ?_, fun i => (h.uses i).trans (SlotPool.judging_edit ms ls ls m a i ?_).symm⟩
    · by_cases e : d = m
      · subst e; simp only [get_set_same, hs, hp]; exact h.free d
      · simp only [get_set_other _ _ e]; exact h.free d
    · simp [MeasSlot.judges, hp, hs]
  | bind ms ls m a i hf hs hp =>
    refine ⟨fun d => ?_, fun j => ?_⟩
    · by_cases e : d = m
      · subst e; simp only [get_set_same]; exact fun e => absurd e hs
      · simp only [get_set_other _ _ e]; exact h.free d
    · by_cases e : j = i
      · subst e
        simp only [get_set_same]
        rw [SlotPool.judging_more ms ls _ m a j (judges_of_free hf j) (by simp [MeasSlot.judges, hs, hp])]
        exact congrArg (· + 1) (h.uses j)
      · simp only [get_set_other _ _ e]
        rw [SlotPool.judging_edit ms ls _ m a j]
        · exact h.uses j
        · rw [judges_of_free hf]
          simp [MeasSlot.judges, hp, Ne.symm e]
  | free ms ls m =>
    have hfree : ∀ (qs : Vector LimitEntry 256) (d : Fin 6),
        ((ms.set m MeasSlot.free, qs) : SlotPool).1[d].state = .free →
        ((ms.set m MeasSlot.free, qs) : SlotPool).1[d].limit = none := fun qs d => by
      by_cases e : d = m
      · subst e; simp only [get_set_same]; intro _; rfl
      · simp only [get_set_other _ _ e]; exact h.free d
    have hr : ∀ i, MeasSlot.free.judges i = false := fun i => judges_of_free rfl i
    split
    · next hn =>
      refine ⟨hfree _, fun i => ?_⟩
      rw [SlotPool.judging_edit ms ls ls m _ i]
      · exact h.uses i
      · rw [hr, judges_of_other (by rw [hn]; simp)]
    · next i hi =>
      have hc : ms[m].state ≠ .free := fun e => by
        have := h.free m e
        simp only [hi] at this
        exact absurd this (by simp)
      refine ⟨hfree _, fun j => ?_⟩
      by_cases e : j = i
      · subst e
        have := SlotPool.judging_less ms ls (ls.set j { ls[j] with uses := ls[j].uses - 1 }) m MeasSlot.free j
          (judges_of_bound hc hi) (hr j)
        have hu : ls[j].uses = SlotPool.judging (ms, ls) j := h.uses j
        simp only [get_set_same]
        exact (congrArg (· - 1) (hu.trans this)).trans (Nat.add_sub_cancel _ _)
      · simp only [get_set_other _ _ e]
        rw [SlotPool.judging_edit ms ls _ m _ j]
        · exact h.uses j
        · rw [hr, judges_of_other (by rw [hi]; simpa using Ne.symm e)]

theorem SlotPool.Counted.moves {x y : SlotPool} (h : SlotPool.Counted x) (g : SlotMoves x y) : SlotPool.Counted y := by
  induction g with
  | refl => exact h
  | tail _ x ih => exact ih.move x

theorem Works.limitsCounted (h : Works T s t) (i : s.LimitsCounted) : t.LimitsCounted :=
  (limitsCounted_iff t).mpr (((limitsCounted_iff s).mp i).moves h.slots)

end Machine
end Sys2Proof
end

