-- ==== Sys2Proof/WellFormed.lean ====
section
/-! DEFINITION. Which commands can come about at all: what the link and the bus can carry. A command that
is out of range in its own fields is well formed; its answer is BAD_PARAM (R178). -/

namespace Sys2Proof

/-- The largest parameter length the two length bytes can give (R176). -/
def maxParams : Nat := 65535

/-- The check of a link command's parameters: no more bytes than the length field can count (R176). -/
def paramsOk (ps : List Byte) : Bool := ps.length ≤ maxParams

/-- Whether a command is well formed. Four checks: a link command's parameter count fits the length
field (R176); UNKNOWN_COMMAND carries a code that is not in the table (R179); a discarded transaction is
one that ended before its last parameter byte (R177); a received frame has 0 to 64 data bytes (R100).
Every other command is well formed for all its operands. -/
def Instr.wellFormed : Instr → Bool
  | .unknownCommand _ code ps => !knownCode code && paramsOk ps
  | .linkTransactionDiscarded _ bytes => !completeTransaction bytes
  | .frameReceived _ _ data => data.length ≤ 64
  | .status _ ps | .readNotice _ ps | .setNoticeLevel _ ps | .setThreshold _ ps | .portReset _ ps
  | .claimSeat _ ps | .releaseSeat _ ps | .clamp _ ps | .unclamp _ ps | .powerOn _ ps | .powerOff _ ps
  | .start _ ps | .stopSeat _ ps | .resume _ ps | .clearFault _ ps | .readSeat _ ps
  | .queueStep _ ps | .flushQueue _ ps | .abortStep _ ps | .readStepState _ ps | .readSnapshot _ ps
  | .takeRegion _ ps | .shareRegion _ ps | .dropRegion _ ps | .writePattern _ ps | .readPattern _ ps
  | .readRegions _ ps | .writeProgram _ ps | .eraseProgram _ ps | .readProgram _ ps | .setShadow _ ps
  | .readChannel _ ps | .setOutput _ ps | .readOutputs _ ps | .setFrameSlot _ ps | .readFrameSlot _ ps
  | .setCalibration _ ps | .storeCalibration _ ps | .readCalibration _ ps | .readSlot _ ps
  | .writeLimit _ ps | .eraseLimit _ ps | .readLimit _ ps | .setFilter _ ps | .setAcceptLong _ ps
  | .readCapture _ ps | .captureStatus _ ps | .flushCapture _ ps | .setCursor _ ps | .writePanel _ ps
  | .readPanel _ ps | .rmwBegin _ ps | .rmwEnd _ ps | .panelOn _ ps | .panelOff _ ps
  | .allPointsNormal _ ps | .allPointsForced _ ps | .setLamp _ ps | .readPanelState _ ps
  | .readResult _ ps | .readSummary _ ps | .clearResults _ ps | .setSerial _ ps => paramsOk ps
  | .portResetInput _ | .portResetRelease _ | .sensorRawChange _ _ _ | .presentLevelChange _
  | .confirmLevelChange _ | .tripLevelChange _ | .clampTimerExpiry _ | .unclampTimerExpiry _
  | .windowExpiry _ | .timerTrigger _ | .channelMove _ | .frameSlotDue _ _ | .transmissionComplete _ _
  | .gateTimeReached _ | .slotDue _ | .conversionComplete _ | .storeEnd _ | .keyRawChange _ _
  | .keyPress _ _ | .stopKeyPress | .coldReset _ | .loadEnd _ | .rackResetRelease | .keyRelease _ => true

end Sys2Proof
end

