-- ==== Sys2Proof/Tests/Slice0.lean ====
section
/-! SUPPORT. Tests: the checks of well-formedness, one or two small tests of each command and event on a small state,
and for every statement with hypotheses a state and operands that meet all of them. -/

namespace Sys2Proof
namespace Tests

open Machine

set_option maxRecDepth 20000

/-! ### Small states -/

/-- The state a result leaves. -/
def after : Result → State
  | .next t => t
  | .fault _ => State.reset
  | .refused _ => State.reset

/-- The answer a port gives in a state. -/
def answerAt (p : Port) (s : State) : Option Answer :=
  match (s.port p).link with
  | .answering a => some a
  | _ => none

/-- The status and the result bytes of a command at port A. -/
def reply (c : Instr) (s : State) : Option (Status × List Byte) :=
  (answerAt .a (after (exec c s))).map (fun a => (a.status, a.result))

/-- The load has ended. -/
def ready : State := { State.reset with loader := { State.reset.loader with phase := .ready } }

/-- The rack reset is held. -/
def held : State := { State.reset with loader := { State.reset.loader with phase := .held } }

/-- A state at a rack time. -/
def at_ (n : Nat) (s : State) : State := { s with clock := { ms := BitVec.ofNat 32 n, us := 0 } }

/-- Seat 0 owned by port A, in a state, its outputs as the state fixes them. -/
def seated (st : SeatState) : State :=
  ready.setRecord 0 { ready.record 0 with state := st, owner := some .a, actuator := st.actuator, supply := st.supply }

/-- Seat 0 in FAULT. -/
def faulty : State := (seated .fault).setRecord 0 { (seated .fault).record 0 with cause := some .unitLost }

/-- A step without parts. -/
def dwell : Step where
  id := 7
  window := 100
  policy := .continue
  entries := []
  measurements := []
  expectation := none
  prompt := none

/-- A step with one channel entry, one measurement, an expectation and a prompt. -/
def rich : Step where
  id := 0x1234
  window := 500
  policy := .holdSeat
  entries := [{ program := 1, target := .fs 3, keep := true, trigger := .frame 3 },
              { program := 2, target := .ao0, keep := false, trigger := .chain 0 }]
  measurements := [{ input := 2, limit := 9, gate := .mark 1 }]
  expectation := some { mode := .absent, ident := 0x123, mask := 0x7FF,
                        pattern := { rule := .any, bytes := #v[1, 2, 3, 4, 5, 6, 7, 8], care := #v[255, 0, 0, 0, 0, 0, 0, 0] },
                        required := 15,
                        after := some { rule := .exact 4, bytes := #v[9, 0, 0, 0, 0, 0, 0, 0],
                                        care := #v[0, 0, 0, 0, 0, 0, 0, 1] } }
  prompt := some { addr := 256, width := 128, expected := .either }

/-- A program: up by one in a block of four words. -/
def walk : Program where
  direction := .up
  step := 1
  wrap := 2
  start := 3072
  count := 4
  block := 2
  mode := .oneShot
  mark := 2
  markNotice := true

/-- A settling limit. -/
def settling : Limit where
  mode := .settle
  low := -100
  high := 100
  guard := 10
  settle := 2
  shift := 1
  interval := 5

/-- Seat 0 in TESTING with a dwell running. -/
def testing : State := (seated .testing).setRunning 0 (some (Running.fresh dwell 0))

/-- Seat 0 in TESTING on the wait list. -/
def waiting : State := { (seated .testing).setQueue 0 [dwell] with waitList := [0] }

/-- Port A alone holds every region. -/
def granted (s : State) : State := { s with grants := Vector.replicate 32 Grant.a }

/-- A channel of seat 0 on program 1 with target AO0. -/
def chan (tr : Trigger) (outstanding remaining : Nat) : Channel where
  state := .armed
  seat := some 0
  entry := some 0
  target := some .ao0
  trigger := some tr
  program := some 1
  address := 3072
  remaining := remaining
  shadow := none
  kept := false
  nextTimer := some 10
  outstanding := outstanding
  made := 0

/-- Channel 0 bound to seat 0 in TESTING, every region granted to its owner, program 1 written. -/
def driven (tr : Trigger) (outstanding remaining : Nat) : State :=
  granted ((testing.setProgram 1 { program := some walk, uses := 1 }).setChannel 0 (chan tr outstanding remaining))

/-- Slot 0 bound to measurement 0 of seat 0 under limit 9. -/
def measuring (st : SlotState) : State :=
  (testing.setLimit 9 { limit := some settling, uses := 1 }).setSlot 0
    { MeasSlot.free with state := st, seat := some 0, measurement := some 0, input := some 3, limit := some 9,
                         gate := some (.delay 5) }

/-- A pin that has held its active level for 20 ms. -/
def rising : Debounce := { level := false, raw := true, since := Instant.zero }

/-- A pin that has held its inactive level for 20 ms. -/
def falling : Debounce := { level := true, raw := false, since := Instant.zero }

/-! ### Well-formedness: an ill-formed command for each check -/

theorem test_wellFormed_paramsFit : (Instr.claimSeat .a [0]).wellFormed = true := by decide

theorem test_illFormed_tooManyParams : (Instr.claimSeat .a (List.replicate 65536 0)).wellFormed = false := by
  show decide ((List.replicate 65536 (0 : Byte)).length ≤ 65535) = false
  rw [List.length_replicate]
  decide

theorem test_illFormed_unknownCommandKnownCode : (Instr.unknownCommand .a 0x10 []).wellFormed = false := by decide

theorem test_wellFormed_unknownCommand : (Instr.unknownCommand .a 0xFF [1]).wellFormed = true := by decide

theorem test_illFormed_discardedWhole : (Instr.linkTransactionDiscarded .a [0x10, 1, 0, 2]).wellFormed = false := by decide

theorem test_wellFormed_discarded : (Instr.linkTransactionDiscarded .a [0x10, 2, 0, 2]).wellFormed = true := by decide

theorem test_illFormed_frameTooLong : (Instr.frameReceived 0 5 (List.replicate 65 0)).wellFormed = false := by decide

theorem test_wellFormed_frame : (Instr.frameReceived 0 5 (List.replicate 64 0)).wellFormed = true := by decide

/-! ### The link reads commands (R176 to R179) -/

theorem test_link_claimSeat : linkTransaction .a [0x10, 1, 0, 2] = .claimSeat .a [2] := by decide

theorem test_link_tailNotRead : linkTransaction .b [0x1A, 1, 0, 3, 9, 9] = .readSeat .b [3] := by decide

theorem test_link_unknown : linkTransaction .a [0x05, 0, 0] = .unknownCommand .a 0x05 [] := by decide

theorem test_link_short : linkTransaction .a [0x10, 2, 0, 2] = .linkTransactionDiscarded .a [0x10, 2, 0, 2] := by decide

/-! ### Commands of the link and the ports -/

theorem test_status : (after (exec (.status .a []) { ready with portA := { ready.portA with overflow := true } })).portA.overflow
    = false := by decide

theorem test_readNotice_empty : reply (.readNotice .a []) ready = some (.ok, 0 :: zeros 14 ++ [0]) := by decide

theorem test_setNoticeLevel : (after (exec (.setNoticeLevel .a [0, 9]) ready)).portA.levels[0] = 9 := by decide

theorem test_setThreshold : (after (exec (.setThreshold .a [15]) ready)).portA.threshold = 15 := by decide

theorem test_portReset : ((after (exec (.portReset .a []) testing)).record 0).state = .hold ∧
    ((after (exec (.portReset .a []) testing)).record 0).owner = none := by decide

theorem test_portResetInput : (after (exec (.portResetInput .b) testing)).portB.resetActive = true ∧
    ((after (exec (.portResetInput .b) testing)).record 0).state = .testing := by decide

theorem test_portResetRelease : (after (exec (.portResetRelease .b) (after (exec (.portResetInput .b) ready)))).linkOpen .b = true := by
  decide

theorem test_unknownCommand : reply (.unknownCommand .a 0xFF []) State.reset = some (.unknown, []) := by decide

theorem test_discarded : (after (exec (.linkTransactionDiscarded .a [0x10]) ready)).portA.link = .idle := by decide

theorem test_transactionByte : (List.range 12).map (transactionByte 1 { status := .ok, result := [7, 8] }) =
    [0, 0, 0, 0, 0, 0, Status.ok.code, 2, 0, 7, 8, 0] := by decide

theorem test_chipSelect : (PortRecord.reset.chipSelect true true).link = .receiving ∧
    (PortRecord.reset.chipSelect false true).link = .idle ∧
    ((PortRecord.reset.chipSelect true true).chipSelect true false).link = .idle := by decide

theorem test_notReady : reply (.claimSeat .a [0]) State.reset = some (.notReady, []) := by decide

/-! ### Commands of the seats -/

theorem test_claimSeat : ((after (exec (.claimSeat .b [3]) ready)).record 3).owner = some .b := by decide

theorem test_releaseSeat : ((after (exec (.releaseSeat .a [0]) (seated .hold))).record 0).owner = none := by decide

theorem test_clamp : reply (.clamp .a [0]) (seated .loaded) = some (.accepted, []) ∧
    ((after (exec (.clamp .a [0]) (seated .loaded))).record 0).deadline = some 1500 := by decide

theorem test_unclamp : ((after (exec (.unclamp .a [0]) (seated .clamped))).record 0).state = .unclamping := by decide

theorem test_powerOn : ((after (exec (.powerOn .a [0]) (seated .clamped))).record 0).supply = .on := by decide

theorem test_powerOff : ((after (exec (.powerOff .a [0]) (seated .hold))).record 0).state = .clamped := by decide

theorem test_start : ((after (exec (.start .a [0]) ((seated .powered).setQueue 0 [dwell]))).seat 0).running =
    some (Running.fresh dwell 0) := by decide

theorem test_stopSeat : ((after (exec (.stopSeat .a [0]) testing)).seat 0).results.summary = .aborted := by decide

theorem test_resume : ((after (exec (.resume .a [0]) ((seated .hold).setQueue 0 [dwell, dwell]))).seat 0).queue = [dwell] := by
  decide

theorem test_clearFault : ((after (exec (.clearFault .a [0]) faulty)).record 0).state = .vacant := by decide

theorem test_readSeat : reply (.readSeat .a [0]) (seated .hold) = some (.ok, [6, 1, 0, 0, 1, 1, 0, 0, 0, 0, 0, 0, 0, 0]) := by
  decide

/-! ### Commands of the step sequencer -/

theorem test_queueStep : ((after (exec (.queueStep .a (0 :: rich.bytes)) (seated .hold))).seat 0).queue = [rich] := by decide

theorem test_afterRule : afterArg 0 (zeros 8) (zeros 8) 0xFF = some none ∧ afterArg 0 (zeros 8) (zeros 8) 9 = none ∧
    afterArg 0 (zeros 8) (zeros 8) 0xFE = none := by decide

theorem test_flushQueue : ((after (exec (.flushQueue .a [0]) waiting)).record 0).state = .powered := by decide

theorem test_abortStep : ((after (exec (.abortStep .a [0, 7, 0]) testing)).record 0).state = .powered := by decide

theorem test_readStepState : reply (.readStepState .a [0]) waiting =
    some (.ok, [1, 1, 7, 0, 1, 1, 0, 0, 0, 0, 0] ++ zeros 10) := by decide

theorem test_readSnapshot : reply (.readSnapshot .a [0]) ready = some (.ok, zeros 14) := by decide

/-! ### Commands of pattern memory, programs and channels -/

theorem test_takeRegion : (after (exec (.takeRegion .a [31]) ready)).grant 31 = .a := by decide

theorem test_shareRegion : (after (exec (.shareRegion .a [5]) (granted ready))).grant 5 = .both := by decide

theorem test_dropRegion : (after (exec (.dropRegion .a [5]) (granted ready))).grant 5 = .none := by decide

theorem test_writePattern : (after (exec (.writePattern .a [0, 12, 2, 1, 2, 3, 4]) (granted ready))).pattern =
    [(3072, 0x0201), (3073, 0x0403)] := by decide

theorem test_readPattern : reply (.readPattern .b [0, 12, 1]) ready = none ∧
    reply (.readPattern .a [0, 12, 1]) { ready with pattern := [(3072, 0x0201)] } = some (.ok, [1, 2]) := by decide

theorem test_readRegions : reply (.readRegions .a []) (granted ready) = some (.ok, List.replicate 32 1) := by decide

theorem test_writeProgram : ((after (exec (.writeProgram .a (47 :: eProgram walk)) ready)).program 47).program = some walk := by
  decide

theorem test_eraseProgram : reply (.eraseProgram .a [1]) (driven (.timer 5) 0 4) = some (.inUse, []) := by decide

theorem test_readProgram : reply (.readProgram .a [1]) (driven (.timer 5) 0 4) =
    some (.ok, 1 :: eProgram walk ++ [1]) := by decide

theorem test_setShadow : ((after (exec (.setShadow .a [0, 0, 1, 0xFF, 0x3F]) (driven (.timer 5) 0 4))).channel 0).shadow =
    some 16383 := by decide

theorem test_readChannel : reply (.readChannel .a [0]) (driven (.timer 5) 0 4) =
    some (.ok, [1, 1, 0, 1, 0, 1, 0, 1, 0, 5, 0, 1, 1, 0, 12, 4, 0, 0, 0, 0, 0, 1, 10, 0]) := by decide

/-! ### Commands of outputs and frame links -/

theorem test_setOutput : ((after (exec (.setOutput .a [0, 4, 5, 0x0F]) (seated .powered))).seat 0).outputs.dl.live = 5 := by decide

theorem test_analogVolts : (after (exec (.setOutput .a [0, 1, 0, 8]) (seated .powered)) |>.seat 0).outputs.ao1.volts = 5 / 4 ∧
    Outputs.reset.ao0.volts = 0 := by decide +kernel

theorem test_setOutput_driven : reply (.setOutput .a [0, 0, 1, 0]) (driven (.timer 5) 0 4) = some (.inUse, []) := by decide

theorem test_readOutputs : (reply (.readOutputs .a [0]) (driven (.timer 5) 0 4)).map (fun x => x.2.take 4) =
    some [0, 0, 1, 0] := by decide

theorem test_setFrameSlot : ((after (exec (.setFrameSlot .a [0, 2, 1, 0x23, 1, 8, 50, 0, 1, 2, 3, 4, 5, 6, 7, 8]) testing)).frame 0 2).nextDue
    = some { ms := 50, us := 0 } := by decide

theorem test_readFrameSlot : (reply (.readFrameSlot .a [0, 2]) ready).map (·.1) = some .ok := by decide

/-! ### Commands of calibration, slots and limits -/

theorem test_setCalibration : ((after (exec (.setCalibration .a [31, 0xFF, 0xFF, 0, 16]) ready)).cal 31).offset = -1 := by decide

theorem test_storeCalibration : reply (.storeCalibration .a [0]) (after (exec (.storeCalibration .a [0]) ready)) =
    some (.busy, []) := by decide

theorem test_readCalibration : reply (.readCalibration .a [0]) ready = some (.ok, [0, 0, 0, 16, 0, 0, 0, 0, 0, 0]) := by decide

theorem test_readSlot : (reply (.readSlot .a [0]) (measuring .gated)).map (fun x => x.2.take 5) = some [1, 1, 0, 1, 0] := by decide

theorem test_writeLimit : ((after (exec (.writeLimit .a (255 :: eLimit settling)) ready)).limit 255).limit = some settling := by
  decide

theorem test_eraseLimit : reply (.eraseLimit .a [9]) (measuring .gated) = some (.inUse, []) := by decide

theorem test_readLimit : reply (.readLimit .a [9]) (measuring .gated) =
    some (.ok, 1 :: eLimit settling ++ [1] ++ eInt32 (-90) ++ eInt32 90) := by decide

/-! ### Commands of the capture units -/

theorem test_setFilter : ((after (exec (.setFilter .a [0, 7, 1, 0xFF, 7, 0, 0]) (seated .hold))).capture 0).filters[7] =
    { enable := true, ident := 0x7FF, mask := 0 } := by decide

theorem test_setAcceptLong : ((after (exec (.setAcceptLong .a [0, 0]) (seated .hold))).capture 0).acceptLong = true := by decide

/-- Seat 0 with one captured record. -/
def captured : State :=
  (seated .hold).setCapture 0
    { (seated .hold).capture 0 with queue := [{ ident := 0x123, data := [1, 2], time := 3, filter := 4 }], overflow := true }

theorem test_readCapture : reply (.readCapture .a [0]) captured = some (.ok, [1, 0, 0x23, 1, 2, 0, 3, 0, 0, 0, 4, 1, 2]) := by decide

theorem test_captureStatus : ((after (exec (.captureStatus .a [0]) captured)).capture 0).overflow = false := by decide

theorem test_flushCapture : reply (.flushCapture .a [0]) captured = some (.ok, [1]) := by decide

/-! ### Commands of the panel -/

theorem test_setCursor : (after (exec (.setCursor .a [7, 127]) ready)).cursor .a =
    { page := 7, column := 127, latch := 0, rmw := false, saved := 0 } := by decide

theorem test_writePanel : (after (exec (.writePanel .a [2, 5, 6]) (after (exec (.setCursor .a [1, 127]) ready)))).panel.ram =
    [(255, 6)] := by decide

theorem test_readPanel : reply (.readPanel .a [2]) { ready with panel := { ready.panel with ram := [(0, 9)] } } =
    some (.ok, [0, 9]) := by decide

theorem test_rmwBegin : ((after (exec (.rmwBegin .a []) ready)).cursor .a).rmw = true := by decide

theorem test_rmwEnd : reply (.rmwEnd .a []) ready = some (.wrongState, []) := by decide

theorem test_panelOn : (after (exec (.panelOn .a []) ready)).panel.display = .on := by decide

theorem test_panelOff : (after (exec (.panelOff .a []) ready)).panel.display = .off := by decide

theorem test_allPointsNormal : (after (exec (.allPointsNormal .a []) ready)).panel.allPoints = .normal := by decide

theorem test_allPointsForced :
    (after (exec (.allPointsForced .a []) (after (exec (.panelOff .a []) ready)))).panel.saver = .sleep := by decide

theorem test_dot : Panel.dot { ready.panel with ram := [(129, 0x81)] } 8 1 = true ∧
    Panel.dot { ready.panel with ram := [(129, 0x81)] } 9 1 = false ∧
    Panel.dot { ready.panel with ram := [(129, 0x81)] } 15 1 = true ∧
    Panel.dot { ready.panel with ram := [(129, 0x81)], display := .off } 8 1 = false := by decide

theorem test_setLamp : ((after (exec (.setLamp .a [0, 3]) (seated .hold))).lamp 0).mode = .steady := by decide

theorem test_readPanelState : (reply (.readPanelState .a []) ready).map (fun x => x.2.length) = some 45 := by decide

/-! ### Commands of the results -/

theorem test_readResult : reply (.readResult .a [0, 63]) ready = some (.ok, zeros 19) := by decide

theorem test_readSummary : reply (.readSummary .a [0]) (after (exec (.stopSeat .a [0]) testing)) =
    some (.ok, [4, 1, 0, 0, 0, 1]) := by decide

theorem test_clearResults : reply (.clearResults .a [0]) (after (exec (.stopSeat .a [0]) testing)) = some (.ok, [1]) := by decide

theorem test_setSerial : ((after (exec (.setSerial .a [0, 2, 0x20, 0x7E]) (seated .hold))).record 0).serial = some [0x20, 0x7E] := by
  decide

/-! ### Events -/

/-- A record of seat 0 with a pin that is ready to change. -/
def withPins (s : State) (p c t : Debounce) : State :=
  at_ 20 (s.setRecord 0 { s.record 0 with present := p, confirm := c, trip := t })

theorem test_sensorRawChange : ((after (exec (.sensorRawChange 0 .trip true) (at_ 5 ready))).record 0).trip =
    { level := false, raw := true, since := { ms := 5, us := 0 } } := by decide

theorem test_presentLevelChange : ((after (exec (.presentLevelChange 0)
    (withPins (seated .vacant) rising Debounce.inactive Debounce.inactive))).record 0).state = .loaded := by decide

theorem test_presentLevelChange_lost : ((after (exec (.presentLevelChange 0)
    (withPins testing falling Debounce.inactive Debounce.inactive))).record 0).cause = some .unitLost := by decide

theorem test_confirmLevelChange : ((after (exec (.confirmLevelChange 0)
    (withPins (seated .clamping) Debounce.inactive rising Debounce.inactive))).record 0).state = .clamped := by decide

theorem test_tripLevelChange : ((after (exec (.tripLevelChange 0)
    (withPins testing Debounce.inactive Debounce.inactive rising))).record 0).actuator = .closed := by decide

/-- Seat 0 in a timed state with its deadline reached. -/
def timed (st : SeatState) : State :=
  at_ 9 ((seated st).setRecord 0 { (seated st).record 0 with deadline := some 9 })

theorem test_clampTimerExpiry : ((after (exec (.clampTimerExpiry 0) (timed .clamping))).record 0).cause =
    some .clampTimeout := by decide

theorem test_unclampTimerExpiry : ((after (exec (.unclampTimerExpiry 0) (timed .unclamping))).record 0).cause =
    some .unclampTimeout := by decide

theorem test_windowExpiry : ((after (exec (.windowExpiry 0) (at_ 100 testing))).seat 0).results.summary = .pass := by decide

theorem test_timerTrigger : ((after (exec (.timerTrigger 0) (at_ 10 (driven (.timer 5) 0 4)))).channel 0).nextTimer =
    some 15 := by decide

theorem test_channelMove : ((after (exec (.channelMove 0) (driven (.timer 5) 1 1))).channel 0).state = .done := by decide

/-- Frame slot 2 of seat 0 in TESTING, due at 7 ms. -/
def framed (l : FrameLink) : State :=
  at_ 7 ((testing.setFrame 0 2 { testing.frame 0 2 with
    enable := true, period := 50, length := 8, nextDue := some { ms := 7, us := 0 } }).setLink 0 l)

theorem test_frameSlotDue : ((after (exec (.frameSlotDue 0 2) (framed .idle))).seat 0).link =
    .sending 2 0 (zeros 8) { ms := 7, us := 228 } := by decide

/-- The frame of slot 2 in flight, complete at 7 ms. -/
def inFlight : FrameLink := .sending 2 5 [1] { ms := 7, us := 0 }

theorem test_transmissionComplete : ((after (exec (.transmissionComplete 0 false) (framed inFlight))).frame 0 2).last =
    .noAck := by decide

theorem test_acknowledges : ready.acknowledges 0 = true ∧ State.reset.acknowledges 0 = false := by decide

theorem test_frameReceived : ((after (exec (.frameReceived 0 5 [1])
    (after (exec (.setFilter .a [0, 3, 1, 0, 0, 0, 0]) (seated .hold))))).capture 0).queue =
    [{ ident := 5, data := [1], time := 0, filter := 3 }] := by decide

/-- Slot 0 GATED with its gate time reached, the converter as given. -/
def gated (x : Converter) : State :=
  { at_ 5 ((measuring .gated).setSlot 0 { (measuring .gated).slot 0 with gateTime := some 5 }) with converter := x }

theorem test_gateTimeReached : (after (exec (.gateTimeReached 0) (gated .idle))).converter =
    .converting 0 0 3 { ms := 5, us := 20 } 0 := by decide +kernel

theorem test_rawCode : rawCode (-1) = 0 ∧ rawCode 0 = 0 ∧ rawCode (5 / 2 / 4096) = 1 ∧ rawCode (4095 * (5 / 2 / 4096)) = 4095 ∧
    rawCode (5 / 2) = 4095 ∧ rawCode 9 = 4095 := by decide +kernel

theorem test_conversion_samplesInput :
    (after (exec (.gateTimeReached 0) { gated .idle with inputs := Vector.replicate 32 (5 / 4) })).converter =
      .converting 0 0 3 { ms := 5, us := 20 } 2048 := by decide +kernel

/-- Slot 0 SAMPLING with its next due reached, the converter as given. -/
def sampling (x : Converter) : State :=
  { at_ 5 ((measuring .sampling).setSlot 0 { (measuring .sampling).slot 0 with nextDue := some 5 }) with converter := x }

theorem test_slotDue : ((after (exec (.slotDue 0) (sampling .idle))).slot 0).nextDue = some 10 := by decide

/-- A conversion of slot 0 that is complete, its sampled code 40. -/
def converted : Converter := .converting 0 0 3 { ms := 5, us := 0 } 40

theorem test_conversionComplete : ((after (exec (.conversionComplete 0) (sampling converted))).slot 0).y = some 40 := by decide

/-- A store of entry 3 that has reached its end. -/
def storing : State :=
  at_ 10 { ready with loader := { ready.loader with store := some { port := .b, entry := 3, offset := -1, gain := 0x1000,
                                                                     finish := 10 } } }

theorem test_storeEnd : (after (exec (.storeEnd { signature := true, offset := true, gain := false }) storing)).eeprom =
    [(0, 0x5A36), (7, 0xFFFF)] := by decide

theorem test_keyRawChange : ((after (exec (.keyRawChange .stop true) (at_ 5 ready))).key .stop).since = { ms := 5, us := 0 } := by
  decide

/-- A state at 20 ms with a key that is ready to change. -/
def withKey (s : State) (y : Key) (d : Debounce) : State := at_ 20 (s.setKey y d)

/-- A step with a prompt that is open on seat 0. -/
def prompted (policy : FailPolicy) (x : Expected) : State :=
  ((seated .testing).setRunning 0
    (some (Running.fresh { dwell with policy := policy, prompt := some { addr := 0, width := 8, expected := x } } 0))).setPrompt 0
    { isOpen := true, expected := some x, width := some 8 }

theorem test_keyPress : ((after (exec (.keyPress 0 .no) (withKey (prompted .holdSeat .yes) (.answer 0 .no) rising))).record 0).state =
    .hold := by decide

theorem test_keyPress_closed : ((after (exec (.keyPress 0 .no) (withKey testing (.answer 0 .no) rising))).portA.queue.map (·.kind)) =
    [.key] := by decide

theorem test_stopKeyPress : ((after (exec .stopKeyPress (withKey testing .stop rising))).record 0).state = .hold := by decide

theorem test_keyRelease : ((after (exec (.keyRelease .stop) (withKey ready .stop falling))).key .stop).level = false := by decide

theorem test_coldReset : (after (exec (.coldReset { signature := true, offset := true, gain := true }) storing)).loader.phase = .held := by
  decide

theorem test_rackResetRelease : (after (exec .rackResetRelease held)).loader.phase = .loading := by decide

/-- The load at its end, the confirm of seat 0 and the present of seat 1 closed, a signed EEPROM. -/
def loaded : State :=
  at_ 40 { (State.reset.setRecord 0 { State.reset.record 0 with confirm := { Debounce.inactive with level := true } }).setRecord 1
    { State.reset.record 1 with present := { Debounce.inactive with level := true } } with eeprom := [(0, 0x5A36), (65, 50)] }

theorem test_loadEnd : (after (exec (.loadEnd true) loaded)).loader.clampTimeout = 100 ∧
    ((after (exec (.loadEnd true) loaded)).record 0).state = .unclamping ∧
    ((after (exec (.loadEnd true) loaded)).record 1).state = .loaded := by decide

theorem test_loadEnd_notAnswered : (after (exec (.loadEnd false) loaded)).loader.clampTimeout = 1500 := by decide

/-! ### The step -/

theorem test_step_front : step { ready with pending := [.claimSeat .a [0], .panelOff .b []] } =
    exec (.claimSeat .a [0]) { ready with pending := [.panelOff .b []] } := rfl

theorem test_step_microsecond : (after (step ready)).clock = { ms := 0, us := 1 } := by decide

theorem test_withFetchWord : State.reset.withFetchWord 8 0x10 = State.reset := rfl

/-! ### Each statement's hypotheses can be met -/

theorem ready_takes : ready.takes .a ∧ ready.takes .b := ⟨⟨rfl, rfl⟩, ⟨rfl, rfl⟩⟩

theorem seated_takes (st : SeatState) : (seated st).takes .a ∧ ((seated st).record 0).owner = some .a := ⟨⟨rfl, rfl⟩, rfl⟩

theorem witness_idle : ready.pending = [] ∧ ready.dueEvents = [] ∧ (at_ 100 testing).pending = [] ∧
    (at_ 100 testing).dueEvents ≠ [] := by decide

theorem witness_notDue :
    (∀ k, (ready.record k).present.ready ready.clock = false ∧ (ready.record k).confirm.ready ready.clock = false ∧
      (ready.record k).trip.ready ready.clock = false ∧ ready.deadlineReady k .clamping = false ∧
      ready.deadlineReady k .unclamping = false ∧ ready.windowReady k = false ∧ ready.completedSlot k = none) ∧
    (∀ c, ready.timerReady c = false ∧ ready.moveReady c = false) ∧ (∀ k f, ready.frameDueReady k f = false) ∧
    (∀ m, ready.gateReady m = false ∧ ready.slotDueReady m = false ∧ ready.conversionReady m = false) ∧
    ready.storeReady = false ∧ ready.pressReady (.answer 0 .yes) = false ∧ ready.releaseReady (.answer 0 .yes) = false ∧
    ready.pressReady .stop = false ∧ ready.loadReady = false ∧ ready.loader.phase ≠ .held := by decide

theorem witness_memoriesAndSaver : ready.MemoriesCanonical ∧ ready.SaverLawful := by
  refine ⟨⟨?_, ?_, ?_⟩, ?_⟩
  · show Memory.wf ready.pattern; decide
  · show Memory.wf ready.eeprom; decide
  · show Memory.wf ready.panel.ram; decide
  · unfold State.SaverLawful; decide

theorem witness_seatsLawful : (seated .clamped).SeatsLawful := by
  intro k
  match k with
  | 0 => exact ⟨rfl, fun _ => rfl, fun _ => rfl, fun h => (by revert h; decide), rfl⟩
  | 1 => exact ⟨rfl, fun _ => rfl, fun _ => rfl, fun h => (by revert h; decide), rfl⟩
  | 2 => exact ⟨rfl, fun _ => rfl, fun _ => rfl, fun h => (by revert h; decide), rfl⟩
  | 3 => exact ⟨rfl, fun _ => rfl, fun _ => rfl, fun h => (by revert h; decide), rfl⟩

/-- Seat 0 in TESTING with a dwell running, its confirm level CLOSED. -/
def heldTesting : State :=
  testing.setRecord 0 { testing.record 0 with confirm := { Debounce.inactive with level := true } }

theorem witness_seatsHeld : heldTesting.StepsLawful ∧ heldTesting.SeatsHeld ∧ (∃ t, step heldTesting = .next t) ∧
    (heldTesting.record 0).state.confirmed = true ∧ (heldTesting.record 0).state = .testing :=
  ⟨⟨by decide, by decide, by decide, by decide, by decide⟩, ⟨by decide, by decide⟩, ⟨_, rfl⟩, rfl, rfl⟩

theorem witness_portsLawful : ready.PortsLawful := by
  intro p
  cases p <;> exact ⟨by decide, by decide, by decide, fun _ => rfl⟩

theorem witness_useCounts : ready.ProgramsCounted ∧ ready.LimitsCounted :=
  ⟨⟨by decide, by decide⟩, ⟨by decide, by decide⟩⟩

theorem witness_listsBounded : ready.ListsBounded := by
  intro k
  match k with
  | 0 => exact ⟨by decide, by decide, ⟨by decide, by decide⟩⟩
  | 1 => exact ⟨by decide, by decide, ⟨by decide, by decide⟩⟩
  | 2 => exact ⟨by decide, by decide, ⟨by decide, by decide⟩⟩
  | 3 => exact ⟨by decide, by decide, ⟨by decide, by decide⟩⟩

theorem witness_stepsLawful : testing.StepsLawful ∧ waiting.StepsLawful ∧ (testing.record 0).owner = some .a ∧
    (testing.record 0).state = .testing ∧ (testing.record 1).owner ≠ some .a :=
  ⟨⟨by decide, by decide, by decide, by decide, by decide⟩, ⟨by decide, by decide, by decide, by decide, by decide⟩,
    rfl, rfl, by decide⟩

theorem witness_portReset : testing.waitList = [] ∧ (testing.seat 0).running = some (Running.fresh dwell 0) ∧
    (∀ j, j ≠ 0 → (testing.record j).owner ≠ some .a) ∧ (waiting.record 0).owner = some .a ∧
    (waiting.record 0).state = .testing ∧ (waiting.seat 0).running = none ∧
    (∀ k, ((seated .hold).record k).state ≠ .testing) ∧ (seated .hold).waitList = [] := by decide

theorem witness_portResetLawful : (seated .hold).StepsLawful :=
  ⟨by decide, by decide, by decide, by decide, by decide⟩

theorem witness_stepTaken : (∃ t, step ready = .next t) ∧ (∃ t, step (seated .clamped) = .next t) ∧
    (∃ t, step testing = .next t) := ⟨⟨_, rfl⟩, ⟨_, rfl⟩, ⟨_, rfl⟩⟩

theorem witness_patternChanges : ∃ t, exec (.writePattern .a [0, 12, 1, 1, 2]) (granted ready) = .next t ∧
    t.pattern ≠ (granted ready).pattern := ⟨_, rfl, by decide⟩

theorem witness_untaken : callOf (.claimSeat .a [0]) = some (.a, [0]) ∧ held.linkOpen .a = false ∧
    State.reset.linkOpen .a = true ∧ State.reset.isReady = false := by decide

theorem witness_refused : ∃ t, callOf (.claimSeat .b [0]) = some (.b, [0]) ∧ (seated .hold).takes .b ∧
    exec (.claimSeat .b [0]) (seated .hold) = .next t ∧ (t.port .b).link = .answering { status := .inUse, result := [] } :=
  ⟨_, rfl, ⟨rfl, rfl⟩, rfl, by decide⟩

theorem witness_lengths : (∀ b : Byte, [4] = [b] → 4 ≤ b.toNat) ∧ (∀ b : Byte, ([] : List Byte) = [b] → 256 ≤ b.toNat) ∧
    callOf (.readNotice .a (zeros 257)) = some (.a, zeros 257) ∧ 256 < (zeros 257).length := by
  refine ⟨fun b h => ?_, fun b h => by simp at h, rfl, by decide⟩
  simp only [List.cons.injEq, and_true] at h
  subst h
  decide

theorem witness_indexes : (∃ x ∈ leadingIndexes, ∃ (i : Nat) (b : Byte) (n : Nat),
      ([0, 8, 0, 0, 0] : List Byte)[i]? = some b ∧ x.2[i]? = some n ∧ n ≤ b.toNat) ∧
    (∃ x ∈ fixedLengths, ([0, 8, 0, 0] : List Byte).length ≠ x.2) ∧
    (∃ x ∈ shortestLengths, ([0, 12, 0, 5] : List Byte).length < x.2) :=
  ⟨⟨(.setShadow, [4, 8]), by simp [leadingIndexes], 1, 8, 8, rfl, rfl, by decide⟩,
    ⟨(.setShadow, 5), by simp [fixedLengths], by decide⟩, ⟨(.writePattern, 5), by simp [shortestLengths], by decide⟩⟩

theorem witness_ownership : ownerCommand (.releaseSeat .a [0]) = some (.a, 0) ∧ (ready.record 0).owner ≠ some .a ∧
    ((seated .fault).record 0).owner = some (otherPort .b) := by decide

theorem witness_status : held.linkOpen .a = false ∧ ready.linkOpen .a = true ∧ ([1] : List Byte) ≠ [] := by decide

/-- A notice of seat 0. -/
def note : Notice := (ready.notice .key (some 0) none 0 none)

theorem witness_readNotice : (ready.port .a).queue = [] ∧ ((ready.post .a note).port .a).queue = [{ note with level := 3 }] := by
  decide

theorem witness_levels : 7 ≤ (7 : Byte).toNat ∧ 16 ≤ (16 : Byte).toNat := by decide

theorem witness_posting : ({ PortRecord.reset with levels := PortRecord.reset.levels.set 3 0 }).levels[note.kind.index] = 0 ∧
    PortRecord.reset.levels[note.kind.index] ≠ 0 ∧ PortRecord.reset.queue.length < 32 ∧
    32 ≤ ({ PortRecord.reset with queue := List.replicate 32 note }).queue.length ∧
    ((seated .hold).record 0).owner = some .a ∧ (ready.record 0).owner = none := by decide

theorem witness_resets : ready.loader.phase = .ready ∧ State.reset.loader.phase = .loading ∧ held.loader.phase = .held ∧
    ready.loader.store = none := by decide

theorem witness_loadEnd : loaded.loader.phase = .loading ∧ msReached loaded.now 40 = true ∧
    (true && (Memory.read loaded.eeprom 0 == 0x5A36)) = true ∧ (loaded.record 0).confirm.level = true ∧
    (loaded.record 1).confirm.level = false ∧ (loaded.record 1).present.level = true ∧
    (loaded.record 2).confirm.level = false ∧ (loaded.record 2).present.level = false := by decide

/-- Seat 0 with a result recorded. -/
def pending_ (st : SeatState) : State :=
  (seated st).setResults 0 ((after (exec (.windowExpiry 0) (at_ 100 testing))).seat 0).results

/-- Seat 0 with its trip TRIPPED. -/
def tripped (st : SeatState) : State :=
  (seated st).setRecord 0 { (seated st).record 0 with trip := { Debounce.inactive with level := true } }

theorem witness_seatCommands : ((seated .loaded).record 0).state = .loaded ∧ ((seated .loaded).seat 0).results.entries = [] ∧
    ((seated .loaded).seat 0).results.summary = .none ∧ ((pending_ .loaded).seat 0).results.entries ≠ [] ∧
    ((pending_ .loaded).record 0).state = .loaded ∧ ((tripped .clamped).record 0).trip.level = true ∧
    ((tripped .clamped).record 0).state = .clamped ∧ ((seated .hold).seat 0).queue = [] ∧
    (((seated .powered).setQueue 0 [dwell]).seat 0).queue ≠ [] ∧ ((seated .hold).record 0).owner ≠ some (otherPort .a) ∧
    ((seated .hold).record 0).owner = some (otherPort .b) := by decide

theorem witness_enterTestingWaits : (((seated .powered).setQueue 0 [dwell]).seat 0).queue ≠ [] ∧
    (((seated .powered).setQueue 0 [dwell]).seat 0).running = none ∧
    ({ (seated .powered).setQueue 0 [dwell] with waitList := [2] }).waitList ≠ [] ∧
    0 ∉ ({ (seated .powered).setQueue 0 [dwell] with waitList := [2] }).waitList := by decide

/-- Seat 0 POWERED with a step queued, its region granted, programs 1 and 2 and limit 9 written. -/
def primed (st : Step) : State :=
  granted (((((seated .powered).setQueue 0 [st]).setProgram 1 { program := some walk, uses := 0 }).setProgram 2
    { program := some walk, uses := 0 }).setLimit 9 { limit := some settling, uses := 0 })

/-- Seat 0 POWERED with a step of every part queued. -/
def prepared : State := primed rich

/-- Every channel bound to seat 1. -/
def crowded (s : State) : State :=
  { s with channels := Vector.replicate 8 { Channel.free with state := .armed, seat := some 1 } }

/-- A step of two measurements, one whose gate opens at once and one whose gate opens with the window. -/
def timedGates : Step :=
  { dwell with measurements := [{ input := 0, limit := 9, gate := .delay 0 }, { input := 7, limit := 9, gate := .delay 99 }] }

/-- A step of one TIMER entry. -/
def ticking : Step := { dwell with entries := [{ program := 1, target := .ao0, keep := true, trigger := .timer 5 }] }

theorem witness_enterTestingNotCovered : (crowded prepared).covered 0 = false ∧ (crowded prepared).waitList = [] ∧
    ((crowded prepared).seat 0).queue ≠ [] := by decide

theorem witness_enterTestingBadReference : (((seated .powered).setQueue 0 [rich]).seat 0).queue = [rich] ∧
    ((seated .powered).setQueue 0 [rich]).covered 0 = true ∧ ((seated .powered).setQueue 0 [rich]).referencesOk rich = false ∧
    rich.policy = .holdSeat := by decide

theorem witness_enterTestingDenied : ({ prepared with grants := ready.grants }.seat 0).queue = [rich] ∧
    { prepared with grants := ready.grants }.covered 0 = true ∧
    { prepared with grants := ready.grants }.referencesOk rich = true ∧
    { prepared with grants := ready.grants }.promptGranted 0 rich = false := by decide

theorem witness_enterTestingTimer : (primed ticking).covered 0 = true ∧ (primed ticking).referencesOk ticking = true ∧
    (primed ticking).promptGranted 0 ticking = true ∧ 1 ≤ walk.block ∧ 2 ≤ walk.count ∧
    ((primed ticking).record 0).owner = some .a ∧ ((primed ticking).grant (regionOf walk.start)).grants .a = true ∧
    ((primed ticking).program 1).program = some walk := by decide

theorem witness_enterTestingTimerRefused : { primed ticking with grants := ready.grants }.covered 0 = true ∧
    { primed ticking with grants := ready.grants }.referencesOk ticking = true ∧
    { primed ticking with grants := ready.grants }.promptGranted 0 ticking = true ∧ 1 ≤ walk.count ∧
    (∀ q, (ready.grant (regionOf walk.start)).grants q = false) := by
  refine ⟨by decide, by decide, by decide, by decide, fun q => ?_⟩
  cases q <;> decide

theorem witness_enterTestingContinues : ((seated .powered).setQueue 0 [ticking, dwell]).covered 0 = true ∧
    ((seated .powered).setQueue 0 [ticking, dwell]).referencesOk ticking = false ∧ ticking.policy = .continue ∧
    ((seated .powered).setQueue 0 [ticking, dwell]).referencesOk dwell = true ∧
    ((seated .powered).setQueue 0 [ticking, dwell]).promptGranted 0 dwell = true ∧
    dwell.entries.length ≤ ((seated .powered).setQueue 0 [ticking, dwell]).freeChannelCount ∧
    dwell.measurements.length ≤ ((seated .powered).setQueue 0 [ticking, dwell]).freeSlotCount := by decide

theorem witness_enterTestingGates : (primed timedGates).referencesOk timedGates = true ∧
    (primed timedGates).promptGranted 0 timedGates = true ∧
    ((primed timedGates).need 0 timedGates).2 ≤ (primed timedGates).freeSlotCount ∧
    timedGates.measurements.length ≤ 2 ∧ 99 < timedGates.window ∧ (prepared.program 1).program = some walk ∧
    rich.entries.length ≤ 3 := by decide

theorem witness_enterTestingStarts : (prepared.seat 0).queue = [rich] ∧ (prepared.seat 0).running = none ∧
    prepared.waitList = [] ∧ (prepared.need 0 rich).1 ≤ prepared.freeChannelCount ∧
    (prepared.need 0 rich).2 ≤ prepared.freeSlotCount ∧ prepared.referencesOk rich = true ∧
    prepared.promptGranted 0 rich = true := by decide

theorem witness_noTimerEntries : ∀ e ∈ rich.entries, ∀ n, e.trigger ≠ .timer n := by
  intro e he n
  simp only [rich, List.mem_cons, List.not_mem_nil, or_false] at he
  rcases he with h | h <;> subst h <;> simp

theorem witness_stopSeat : (testing.seat 0).running = some (Running.fresh dwell 0) ∧ (waiting.seat 0).running = none ∧
    (waiting.record 0).state = .testing ∧ ((seated .hold).record 0).state ≠ .testing := by decide

/-- Seat 0 in FAULT with its levels and actuator. -/
def faultyWith (p c : Bool) (a : Actuator) : State :=
  faulty.setRecord 0 { faulty.record 0 with present := { Debounce.inactive with level := p },
                                            confirm := { Debounce.inactive with level := c }, actuator := a }

theorem witness_clearFault : ((faultyWith false true .open).record 0).state = .fault ∧
    ((faultyWith false true .open).record 0).present.level = false ∧
    ((faultyWith true true .closed).record 0).confirm.level = true ∧
    ((faultyWith true true .closed).record 0).actuator = .closed ∧
    ((faultyWith true true .open).record 0).actuator = .open ∧
    ((faultyWith true false .open).record 0).confirm.level = false ∧
    ((faultyWith true false .open).record 0).owner ≠ some (otherPort .a) ∧
    ((seated .hold).record 0).owner ≠ some (otherPort .a) ∧ ((seated .hold).record 0).state ≠ .fault := by decide

theorem witness_enteringFault : Cause.isFault .unitLost = true ∧ Cause.isFault .supplyTrip = true ∧
    (faulty.record 0).state = .fault ∧ (testing.record 0).state ≠ .fault ∧ (testing.record 0).state = .testing ∧
    ((seated .clamped).record 0).state ≠ .testing := by decide

theorem witness_keys : (withKey State.reset (.answer 0 .yes) rising).pressReady (.answer 0 .yes) = true ∧
    (withKey State.reset (.answer 0 .yes) rising).isReady = false ∧
    (withKey ready (.answer 0 .yes) rising).pressReady (.answer 0 .yes) = true ∧
    (withKey ready (.answer 0 .yes) rising).isReady = true ∧ ((withKey ready (.answer 0 .yes) rising).prompt 0).isOpen = false ∧
    (withKey ready .stop falling).releaseReady .stop = true := by decide

theorem witness_sensors :
    ((withPins ready rising rising rising).record 0).present.ready (withPins ready rising rising rising).clock = true ∧
    ((withPins ready rising rising rising).record 0).confirm.ready (withPins ready rising rising rising).clock = true ∧
    ((withPins ready rising rising rising).record 0).trip.ready (withPins ready rising rising rising).clock = true ∧
    (withPins ready rising rising rising).isReady = true ∧ (withPins State.reset rising rising rising).isReady = false := by
  decide

/-- Seat 0 LOADED with its confirm already closed. -/
def confirmed : State :=
  (seated .loaded).setRecord 0 { (seated .loaded).record 0 with confirm := { Debounce.inactive with level := true } }

theorem witness_clampFindsConfirm : confirmed.takes .a ∧ (confirmed.record 0).owner = some .a ∧
    (confirmed.record 0).state = .loaded ∧ (confirmed.record 0).confirm.level = true ∧
    (confirmed.seat 0).results.entries = [] ∧ (confirmed.seat 0).results.summary = .none :=
  ⟨⟨rfl, rfl⟩, rfl, rfl, rfl, rfl, rfl⟩

theorem witness_clampTimers : ((timed .clamping).record 0).deadline = some 9 ∧ msReached (timed .clamping).now 9 = true ∧
    ((timed .clamping).record 0).state = .clamping ∧ ((timed .unclamping).record 0).state = .unclamping := by decide

theorem witness_stepFits : rich.Fits ∧ stepOk rich = true ∧ stepOk { rich with entries := [] } = false ∧
    ({ rich with entries := [] } : Step).Fits :=
  ⟨⟨by decide, by decide, by decide, by decide, by decide⟩, by decide, by decide,
    ⟨by decide, by decide, by decide, by decide, by decide⟩⟩

theorem witness_lengthRules : (zeros 40 ++ [(9 : Byte)])[40]? = some 9 ∧ (zeros 5 ++ [(0xFE : Byte)])[5]? = some 0xFE ∧
    9 ≤ (9 : Byte).toNat ∧ (0xFE : Byte).toNat ≤ 0xFE := by decide

theorem witness_recordFits : walk.Fits ∧ settling.Fits :=
  ⟨⟨by decide, by decide, by decide, by decide, by decide⟩,
    ⟨by decide, by decide, by decide, by decide, by decide, by decide⟩⟩

theorem witness_queueStep : queueStepArg [0] = none ∧ queueStepArg (0 :: rich.bytes) = some (0, rich) ∧
    24 ≤ (((seated .hold).setQueue 0 (List.replicate 24 dwell)).seat 0).queue.length ∧
    ((seated .hold).seat 0).queue.length < 24 ∧ ((seated .vacant).record 0).state = .vacant ∧ 0 ∈ waiting.waitList ∧
    0 ∉ testing.waitList := by decide

theorem witness_abortStep : (testing.seat 0).running = some (Running.fresh dwell 0) ∧ (Running.fresh dwell 0).step.id = 7 ∧
    (testing.seat 0).queue = [] ∧ (Running.fresh rich 0).step.policy = .holdSeat ∧ (Running.fresh dwell 0).step.id ≠ 8 := by
  decide

/-- A channel of the running step with a move outstanding, its region not granted. -/
def stepRefused : State := { driven (.timer 5) 1 4 with grants := ready.grants }

theorem witness_stepRefused : (stepRefused.channel 0).outstanding ≠ 0 ∧ (stepRefused.channel 0).state = .armed ∧
    (stepRefused.channel 0).seat = some 0 ∧ stepRefused.channelProgram 0 = some walk ∧
    stepRefused.moveGranted 0 0 = false ∧ (stepRefused.channel 0).kept = false ∧ (stepRefused.record 0).state = .testing ∧
    (stepRefused.seat 0).running = some (Running.fresh dwell 0) ∧ (stepRefused.seat 0).queue = [] := by decide

theorem witness_openParts : (Running.fresh rich 0).step.expectation = rich.expectation ∧
    (Running.fresh rich 0).expectReport = none ∧ (Running.fresh rich 0).step.prompt = rich.prompt ∧
    (Running.fresh rich 0).promptReport = none := by decide

/-- Seat 0 at the end of its dwell, seat 1 waiting with a dwell queued. -/
def lineUp : State :=
  { ((at_ 100 testing).setRecord 1 { testing.record 1 with state := .testing, owner := some .b }).setQueue 1 [dwell] with
    waitList := [1] }

theorem witness_arbiter : ((lineUp.seat 0).queue = [] ∧ lineUp.waitList = [1] ∧ ([1] : List (Fin 4)).Nodup ∧ 0 ∉ lineUp.waitList ∧
    (lineUp.record 1).state = .testing ∧ (lineUp.seat 1).running = none ∧ (lineUp.seat 1).queue = [dwell]) ∧
    dwell.entries.length ≤ (lineUp.leaveTesting 0).freeChannelCount ∧
    dwell.measurements.length ≤ (lineUp.leaveTesting 0).freeSlotCount ∧ lineUp.referencesOk dwell = true ∧
    lineUp.promptGranted 1 dwell = true ∧ ({ crowded prepared with waitList := [0] }).covered 0 = false := by decide

/-- Seat 0 at the end of a dwell with channel 0 on its keep entry, another dwell queued. -/
def keeping : State :=
  (((at_ 100 (driven (.timer 5) 0 4)).setRunning 0 (some { Running.fresh ticking 0 with channels := [0] })).setQueue 0 [dwell])

theorem witness_nextStep : (keeping.seat 0).running = some { Running.fresh ticking 0 with channels := [0] } ∧
    msReached keeping.now (Running.fresh ticking 0).deadline = true ∧ (keeping.seat 0).queue = [dwell] ∧
    keeping.waitList = [] ∧ dwell.entries.length ≤ keeping.freeChannelCount ∧
    dwell.measurements.length ≤ keeping.freeSlotCount ∧ keeping.referencesOk dwell = true ∧
    keeping.promptGranted 0 dwell = true ∧ (keeping.channel 0).seat = some 0 ∧ (keeping.channel 0).state ≠ .free ∧
    (keeping.channel 0).kept = false ∧ (∀ e ∈ dwell.entries, some e.target ≠ (keeping.channel 0).target) := by decide

theorem witness_windowExpiry : ((at_ 100 testing).seat 0).running = some (Running.fresh dwell 0) ∧
    msReached (at_ 100 testing).now (Running.fresh dwell 0).deadline = true ∧ (Running.fresh dwell 0).step.measurements = [] ∧
    (Running.fresh dwell 0).slots = [] ∧ (Running.fresh dwell 0).step.expectation = none ∧
    (Running.fresh dwell 0).step.prompt = none ∧ (Running.fresh dwell 0).expectReport = none ∧
    (Running.fresh dwell 0).promptReport = none ∧ ((at_ 100 testing).seat 0).queue = [] ∧
    (measuring .sampling).slotLimit 0 = some settling := by decide

theorem witness_regions : (granted ready).grant 0 = Grant.of .a ∧ ready.grant 0 = .none := by decide

theorem witness_pattern : Memory.wf ready.pattern ∧ (word16 0xFF 0x3F).toNat + 1 ≤ 16384 ∧
    16384 < (word16 0xFF 0x3F).toNat + (2 : Byte).toNat ∧ 16384 ≤ (word16 0 0x40).toNat ∧ (64 : Byte).toNat ≤ 64 ∧
    64 < (65 : Byte).toNat ∧ ((granted ready).grant 31).grants .a = true ∧ (ready.grant 31).grants .a = false := by decide

theorem witness_tables : writeProgramArg [48] = none ∧ writeLimitArg [] = none ∧
    writeProgramArg (1 :: eProgram walk) = some (1, walk) ∧ writeLimitArg (9 :: eLimit settling) = some (9, settling) ∧
    ((driven (.timer 5) 0 4).channel 0).state ≠ .free ∧ ((driven (.timer 5) 0 4).channel 0).seat = some 0 ∧
    ((driven (.timer 5) 0 4).channel 1).state = .free ∧ (word16 0xFF 0x3F).toNat < 16384 ∧ 16384 ≤ (word16 0 0x40).toNat := by
  decide

theorem witness_walk : walk.wrap ≤ 14 ∧ walk.direction = .up ∧ 2 ^ ({ walk with wrap := 0 } : Program).wrap ∣ walk.step ∧
    ({ walk with wrap := 14, direction := .down } : Program).wrap ≤ 14 ∧ advance walk 3075 = 3072 := by decide

theorem witness_move : ((driven (.timer 5) 1 4).channel 0).outstanding ≠ 0 ∧
    ((driven (.timer 5) 1 4).channel 0).state = .armed ∧ ((driven (.timer 5) 1 4).channel 0).seat = some 0 ∧
    ((driven (.timer 5) 1 4).channel 0).target = some .ao0 ∧ (driven (.timer 5) 1 4).channelProgram 0 = some walk ∧
    (driven (.timer 5) 1 4).moveGranted 0 0 = true ∧ ((driven (.timer 5) 1 4).channel 0).remaining - 1 ≠ 0 ∧
    ((driven (.timer 5) 1 1).channel 0).remaining - 1 = 0 := by decide

/-- Slot 0 of seat 0 gated on the mark of entry 0, the next move of channel 0 at the mark. -/
def marking : State :=
  (driven (.timer 5) 1 3).setSlot 0 { (measuring .gated).slot 0 with gate := some (.mark 0) }

/-- Channel 1 chained to entry 0, the next move of channel 0 the last of its transaction. -/
def chained : State :=
  (driven (.timer 5) 1 1).setChannel 1 { chan (.chain 0) 0 4 with entry := some 1, target := some .dl }

theorem witness_mark : (marking.channel 0).remaining - 1 = walk.mark ∧ walk.markNotice = true ∧
    (marking.channel 0).entry = some 0 ∧ (marking.channel 0).kept = false ∧ (marking.slot 0).state = .gated ∧
    (marking.slot 0).seat = some 0 ∧ (marking.slot 0).gate = some (.mark 0) ∧ (marking.slot 1).state ≠ .gated ∧
    marking.moveGranted 0 0 = true ∧ ((driven (.timer 5) 1 4).channel 0).remaining - 1 ≠ walk.mark := by decide

theorem witness_chain : (chained.channel 0).remaining - 1 = 0 ∧ (chained.channel 1).seat = some 0 ∧
    (chained.channel 1).entry = some 1 ∧ (chained.channel 1).kept = false ∧ (chained.channel 1).trigger = some (.chain 0) ∧
    (chained.channel 1).state = .armed ∧ (chained.channel 1).outstanding = 0 ∧ chained.channelProgram 1 = some walk ∧
    chained.moveGranted 0 0 = true ∧ (chained.channel 2).state = .free := by decide

theorem witness_moveToFrame :
    ((((driven (.frame 2) 1 4).setChannel 0 { chan (.frame 2) 1 4 with target := some (.fs 2) }).channel 0).target =
      some (.fs 2)) ∧
    ((driven (.frame 2) 1 4).setChannel 0 { chan (.frame 2) 1 4 with target := some (.fs 2) }).moveGranted 0 0 = true := by
  decide

/-- The kept channel of seat 0, its region not granted. -/
def keptRefused : State :=
  { (driven (.timer 5) 1 4).setChannel 0 { chan (.timer 5) 1 4 with kept := true, entry := none } with grants := ready.grants }

theorem witness_keptRefused : (keptRefused.channel 0).outstanding ≠ 0 ∧ (keptRefused.channel 0).state = .armed ∧
    (keptRefused.channel 0).seat = some 0 ∧ (keptRefused.channel 0).target = some .ao0 ∧
    keptRefused.channelProgram 0 = some walk ∧ keptRefused.moveGranted 0 0 = false ∧ (keptRefused.channel 0).kept = true ∧
    keptRefused.waitList = [] := by decide

theorem witness_timer : ((at_ 10 (driven (.timer 5) 0 4)).channel 0).state ≠ .free ∧
    ((at_ 10 (driven (.timer 5) 0 4)).channel 0).trigger = some (.timer 5) ∧
    ((at_ 10 (driven (.timer 5) 0 4)).channel 0).nextTimer = some 10 ∧ msReached (at_ 10 (driven (.timer 5) 0 4)).now 10 = true ∧
    ((at_ 10 (driven (.timer 5) 0 4)).channel 0).outstanding = 0 ∧ ((at_ 10 (driven (.timer 5) 2 4)).channel 0).outstanding ≠ 0 ∧
    (at_ 10 (driven (.timer 5) 0 4)).moveGranted 0 0 = true := by decide

theorem witness_outputWords : Outputs.reset.fo0.cycle = none ∧
    (Outputs.reset.fo0.take 100).cycle = some { period := 100, elapsed := 0 } ∧ (19 : Word) ≠ 0 := by decide

theorem witness_outputCommands : 5 ≤ (5 : Byte).toNat ∧ ((seated .powered).record 0).state = .powered ∧
    ((seated .hold).record 0).state = .hold ∧ ((seated .clamped).record 0).state ≠ .powered ∧
    (∀ c, ((seated .powered).channel c).state = .free) ∧ 2048 ≤ (word16 0 8).toNat ∧ 8 < (9 : Byte).toNat ∧
    (word16 0 0).toNat = 0 ∧ (word16 0xFF 7).toNat < 2048 ∧ (word16 1 0).toNat ≠ 0 := by decide

theorem witness_frames : ((framed .idle).frame 0 2).nextDue = some { ms := 7, us := 0 } ∧
    Instant.reached (framed .idle).clock { ms := 7, us := 0 } = true ∧
    ((framed .idle).seat 0).link = .idle ∧ ((framed inFlight).seat 0).link ≠ .idle ∧
    (∀ g, g ≠ 2 → ((framed .idle).frame 0 g).pending = false) ∧
    (∀ c, ((framed .idle).channel c).frameTriggered 0 2 = false) ∧
    Instant.reached (framed inFlight).clock { ms := 7, us := 0 } = true ∧
    (∀ g, ((framed inFlight).frame 0 g).pending = false) := by decide

/-- Frame slot 2 of seat 0 due at 7 ms, channel 0 triggered by it. -/
def triggered (tg : Target) : State :=
  at_ 7 (((driven (.frame 2) 0 4).setChannel 0 { chan (.frame 2) 0 4 with target := some tg }).setFrame 0 2
    { testing.frame 0 2 with enable := true, period := 50, length := 8, nextDue := some { ms := 7, us := 0 } })

theorem witness_frameTrigger : (∀ d, ((triggered .ao0).channel d).state ≠ .free ∧ ((triggered .ao0).channel d).seat = some 0 ∧
      ((triggered .ao0).channel d).trigger = some (.frame 2) ↔ d = 0) ∧
    (∀ g, g ≠ 2 → ((triggered .ao0).frame 0 g).pending = false) ∧ ((triggered .ao0).channel 0).state = .armed ∧
    ((triggered .ao0).channel 0).outstanding = 0 ∧ (triggered .ao0).channelProgram 0 = some walk ∧
    1 ≤ min walk.block ((triggered .ao0).channel 0).remaining ∧ ((triggered .ao0).seat 0).link = .idle ∧
    Instant.reached (triggered .ao0).clock { ms := 7, us := 0 } = true := by decide

theorem witness_frameBlock : (∀ d, ((triggered (.fs 2)).channel d).state ≠ .free ∧ ((triggered (.fs 2)).channel d).seat = some 0 ∧
      ((triggered (.fs 2)).channel d).trigger = some (.frame 2) ↔ d = 0) ∧
    ((triggered (.fs 2)).channel 0).target = some (.fs 2) ∧ ((triggered (.fs 2)).record 0).owner = some .a ∧
    (∀ i : Fin 2, ((triggered (.fs 2)).grant (regionOf ((advance walk)^[i.val] ((triggered (.fs 2)).channel 0).address))).grants
      .a = true) ∧ min walk.block ((triggered (.fs 2)).channel 0).remaining = 2 := by decide

/-- The frame of slot 2 in flight and complete, slots 1, 3 and 6 pending, 1 and 3 of one identifier. -/
def pendingFrames : State :=
  (((framed inFlight).setFrame 0 1 { testing.frame 0 1 with ident := 5, pending := true }).setFrame 0 3
    { testing.frame 0 3 with ident := 5, pending := true }).setFrame 0 6 { testing.frame 0 6 with ident := 6, pending := true }

theorem witness_pendingFrames : (pendingFrames.record 0).state = .testing ∧ (pendingFrames.frame 0 1).pending = true ∧
    (∀ h, (pendingFrames.frame 0 h).pending = true →
      (pendingFrames.frame 0 1).ident.toNat < (pendingFrames.frame 0 h).ident.toNat ∨
        ((pendingFrames.frame 0 1).ident = (pendingFrames.frame 0 h).ident ∧ 1 ≤ h)) ∧
    (∀ c, (pendingFrames.channel c).frameTriggered 0 1 = false) ∧ (pendingFrames.seat 0).link = inFlight := by decide

theorem witness_calibration : -2048 ≤ (word16 0 0xF8).toInt ∧ (word16 0 0xF8).toInt ≤ 2047 ∧ (word16 0xFF 0xF7).toInt < -2048 ∧
    2047 < (word16 0 8).toInt ∧ 32 ≤ (32 : Byte).toNat ∧ msReached storing.now 10 = true ∧ Memory.wf storing.eeprom := by decide

theorem witness_store : storing.loader.store = some { port := .b, entry := 3, offset := -1, gain := 0x1000, finish := 10 } := by
  decide

theorem witness_converter : (gated .idle).gateReady 0 = true ∧ (gated converted).converter ≠ .idle ∧
    (sampling .idle).slotDueReady 0 = true ∧ (∀ n, ((gated .idle).slot n).due = false) ∧
    ((gated .idle).slot 0).seat = some 0 ∧ ((gated .idle).slot 0).input = some 3 ∧ ((gated .idle).slot 0).limit = some 9 ∧
    ((gated .idle).limit 9).limit = some settling ∧ ((sampling .idle).slot 0).nextDue = some 5 ∧
    (sampling converted).converter = converted ∧ Instant.reached (sampling converted).clock { ms := 5, us := 0 } = true ∧
    ((sampling converted).slot 0).state = .sampling ∧ ((sampling converted).slot 0).binding = 0 ∧
    ((gated converted).slot 0).state ≠ .sampling ∧ ((sampling converted).slot 0).measurement = some 0 ∧
    (MeasSlot.takeSample { (sampling converted).slot 0 with samples := 1 } settling 40).state ≠ .latched := by decide

/-- Slot 0 one sample before it latches at the end of its conversion, under a step of one measurement. -/
def latching (st : Step) : State :=
  ((sampling converted).setSlot 0 { (sampling converted).slot 0 with y := some 40, run := 1 }).setRunning 0
    (some (Running.fresh st 0))

/-- A step of one measurement, with a prompt or without. -/
def oneMeasurement (pr : Option Prompt) : Step :=
  { dwell with measurements := [{ input := 3, limit := 9, gate := .start }], prompt := pr }

theorem witness_latch :
    (MeasSlot.takeSample { (latching (oneMeasurement none)).slot 0 with samples := 1 } settling
      (calibrate 40 ((latching (oneMeasurement none)).cal 3))).state = .latched ∧
    (Running.fresh (oneMeasurement none) 0).measReports = [none] ∧ (oneMeasurement none).prompt = none ∧
    (oneMeasurement none).expectation = none ∧ ((latching (oneMeasurement none)).record 0).state = .testing ∧
    ((latching (oneMeasurement none)).seat 0).queue = [] ∧
    (oneMeasurement rich.prompt).prompt ≠ none ∧ (Running.fresh (oneMeasurement rich.prompt) 0).promptReport = none ∧
    (∀ n, ((latching (oneMeasurement rich.prompt)).slot n).due = false) := by decide

/-- A conversion for a slot bound anew is complete, the pointer at slot 3, slots 1 and 4 due. -/
def rotating : State :=
  { ((sampling (.converting 0 9 3 { ms := 5, us := 0 } 40)).setSlot 1
      { (measuring .sampling).slot 0 with due := true, nextDue := some 5 }).setSlot 4
      { (measuring .sampling).slot 0 with due := true, nextDue := some 5 } with rotation := 3 }

theorem witness_rotation : (rotating.slot 0).binding ≠ 9 ∧ (rotating.slot 4).due = true ∧ (rotating.slot 1).due = true ∧
    (∀ j, (rotating.slot j).due = true → 4 - rotating.rotation - 1 ≤ j - rotating.rotation - 1) ∧
    (rotating.slot 4).seat = some 0 ∧ (rotating.slot 4).input = some 3 ∧ (rotating.slot 4).limit = some 9 ∧
    (rotating.limit 9).limit = some settling := by decide

theorem witness_rawCode : (-1 / 4096 : Rat) < 0 ∧ ((4095 : Nat) : Rat) * (5 / 2 / 4096) ≤ 4095 * (5 / 2 / 4096) ∧
    (4095 * (5 / 2 / 4096) : Rat) < (((4095 : Nat) : Rat) + 1) * (5 / 2 / 4096) ∧ (5 / 2 : Rat) ≤ 5 / 2 := by
  norm_num

theorem witness_calibrate : calibrate 0 { offset := 2047, gain := 65535, source := .set } = -32752 ∧
    calibrate 4095 { offset := -2048, gain := 65535, source := .set } = 32767 := by decide

theorem witness_zones : settling.low ≤ settling.high ∧ zoneOf settling (-101) = .outLow ∧ zoneOf settling (-100) = .marginal ∧
    zoneOf settling (-90) = .inside ∧ zoneOf settling 90 = .inside ∧ zoneOf settling 100 = .marginal ∧
    zoneOf settling 101 = .outHigh := by decide

theorem witness_capture : (captured.record 0).owner = some .a ∧
    (captured.capture 0).queue = [{ ident := 0x123, data := [1, 2], time := 3, filter := 4 }] ∧ (ready.capture 0).queue = [] := by
  decide

/-- The expectation of the rich step, watched by seat 0. -/
def watching (e : Expectation) : State := testing.setCapture 0 ((testing.capture 0).watch e)

/-- An expectation of two frames of the first byte 1. -/
def expecting : Expectation where
  mode := .present
  ident := 0x123
  mask := 0x7FF
  pattern := { rule := .any, bytes := #v[1, 0, 0, 0, 0, 0, 0, 0], care := #v[255, 0, 0, 0, 0, 0, 0, 0] }
  required := 2
  after := none

theorem witness_expectation : ((watching expecting).capture 0).expectState = .watching ∧
    ((watching expecting).capture 0).expectation = some expecting ∧ identMatch expecting.ident expecting.mask 0x123 = true ∧
    identMatch expecting.ident expecting.mask 0x122 = false ∧ expecting.pattern.matches [1] = true ∧
    expecting.pattern.matches [] = false ∧ expecting.after = none ∧
    ((watching expecting).capture 0).matchCount + 1 ≠ expecting.required ∧
    (∀ f : Fin 8, (((watching expecting).capture 0).filters[f]).matches 0x123 = false) ∧ (watching expecting).isReady = true ∧
    8 < (zeros 9).length := by decide

/-- Seat 0 watching an expectation beside an open prompt, filter 3 passing every identifier. -/
def examining (e : Expectation) : State :=
  ((after (exec (.setFilter .a [0, 3, 1, 0, 0, 0, 0]) testing)).setCapture 0
    ((((after (exec (.setFilter .a [0, 3, 1, 0, 0, 0, 0]) testing)).capture 0)).watch e)).setRunning 0
    (some (Running.fresh { dwell with expectation := some e, prompt := rich.prompt } 0))

theorem witness_examinedAndStored : ((examining expecting).capture 0).expectState = .watching ∧
    ((examining expecting).capture 0).expectation = some expecting ∧
    ((examining expecting).capture 0).matchCount + 1 ≠ expecting.required ∧ (examining expecting).isReady = true ∧
    (((examining expecting).capture 0).filters[3]).matches 0x123 = true ∧
    (∀ g : Fin 8, g < 3 → (((examining expecting).capture 0).filters[g]).matches 0x123 = false) ∧
    (expecting.pattern.matches [] && (expecting.after.isNone || ((examining expecting).capture 0).afterSeen)) = false := by
  decide

theorem witness_decidingFrame : ({ expecting with required := 1 } : Expectation).mode = .present ∧
    ((examining { expecting with required := 1 }).capture 0).matchCount + 1 = 1 ∧
    ({ expecting with mode := .absent } : Expectation).mode = .absent ∧
    (∃ r, ((examining { expecting with required := 1 }).seat 0).running = some r ∧ r.step.expectation ≠ none ∧
      r.expectReport = none ∧ r.step.prompt ≠ none ∧ r.promptReport = none) :=
  ⟨rfl, rfl, rfl, _, rfl, by decide, rfl, by decide, rfl⟩

theorem witness_reception : (testing.capture 0).expectState ≠ .watching ∧ testing.isReady = true ∧
    (((after (exec (.setFilter .a [0, 3, 1, 0, 0, 0, 0]) testing)).capture 0).filters[3]).matches 5 = true ∧
    (testing.capture 0).acceptLong = false := by decide

theorem witness_cursor : (ready.cursor .a).rmw = false ∧ ((after (exec (.rmwBegin .a []) ready)).cursor .a).rmw = true ∧
    8 ≤ (8 : Byte).toNat ∧ 128 ≤ (128 : Byte).toNat ∧ 4 ≤ (4 : Byte).toNat := by decide

theorem witness_panelTransfers : Memory.wf ready.panel.ram ∧ (0 : Fin 4).val = (ready.cursor .a).page.val / 2 ∧
    (ready.record 0).owner ≠ some (otherPort .a) ∧ (ready.prompt 0).isOpen = false ∧
    ((seated .hold).record 0).owner = some (otherPort .b) ∧ ((prompted .continue .yes).prompt 0).isOpen = true ∧
    128 < (129 : Byte).toNat ∧ 1 ≤ (128 : Byte).toNat ∧ (128 : Byte).toNat ≤ 128 := by decide

theorem witness_saver : (after (exec (.allPointsForced .a []) (after (exec (.panelOff .a []) ready)))).SaverLawful := by
  unfold State.SaverLawful; decide

theorem witness_prompt : ({ addr := 16256, width := 128, expected := .no } : Prompt).width ≤ 128 ∧
    ((seated .testing).record 0).state ≠ .fault := by decide

theorem witness_keyAnswer : (withKey (prompted .continue .yes) (.answer 0 .no) rising).pressReady (.answer 0 .no) = true ∧
    (withKey (prompted .continue .yes) (.answer 0 .no) rising).isReady = true ∧
    ((prompted .continue .yes).prompt 0).isOpen = true ∧ ((prompted .continue .yes).prompt 0).expected = some .yes ∧
    ((prompted .continue .yes).record 0).state = .testing ∧ ((prompted .continue .yes).seat 0).queue = [] ∧
    (∃ r, ((prompted .continue .yes).seat 0).running = some r ∧ r.measReports = [] ∧ r.step.expectation = none ∧
      r.expectReport = none ∧ r.promptReport = none) := ⟨by decide, by decide, rfl, rfl, rfl, rfl, _, rfl, rfl, rfl, rfl, rfl⟩

theorem witness_stopKey : (withKey testing .stop rising).pressReady .stop = true ∧ (withKey testing .stop rising).isReady = true ∧
    (withKey testing .stop rising).waitList = [] ∧ (testing.record 1).state ≠ .testing := by decide

theorem witness_results : ResultStore.empty.entries.length < 64 ∧
    64 ≤ ({ ResultStore.empty with
      entries := ((pending_ .hold).seat 0).results.entries.flatMap (fun e => List.replicate 64 e) }).entries.length := by decide

theorem witness_serial : ([0x20, 0x7E] : List Byte).length ≤ 24 ∧
    (∀ b ∈ ([0x20, 0x7E] : List Byte), 0x20 ≤ b.toNat ∧ b.toNat ≤ 0x7E) ∧ 24 < (25 : Byte).toNat ∧
    (∃ b ∈ ([0x1F] : List Byte), b.toNat < 0x20 ∨ 0x7E < b.toNat) := by decide

end Tests
end Sys2Proof
end

section
/-! Step queues, capture queues and result stores stay within their lengths (R24, R132, R166): what each meaning does to
the lists, and the step. Everything the sequencer does lies in `Works`, which keeps the bounds; a command that touches
no list is carried by the update it makes. -/

namespace Sys2Proof
namespace Machine
namespace Steps

variable {s t : State} {p : Port}

/-! ### Updates that touch no list -/

theorem listsBounded_of_same (h : s.ListsBounded)
    (hs : ∀ k, (t.seat k).queue = (s.seat k).queue ∧ (t.seat k).capture.queue = (s.seat k).capture.queue ∧
      (t.seat k).results = (s.seat k).results) : t.ListsBounded := fun k => by
  obtain ⟨hq, hc, hr⟩ := hs k
  rw [hq, hc, hr]
  exact h k

theorem listsBounded_setRecord (h : s.ListsBounded) (k : Fin 4) (r : SeatRecord) : (s.setRecord k r).ListsBounded :=
  listsBounded_of_same h (by simp)

theorem listsBounded_setPort (h : s.ListsBounded) (p : Port) (r : PortRecord) : (s.setPort p r).ListsBounded :=
  listsBounded_of_same h (by simp)

theorem listsBounded_setCursor (h : s.ListsBounded) (p : Port) (c : Cursor) : (s.setCursor p c).ListsBounded :=
  listsBounded_of_same h (by simp)

theorem listsBounded_setKey (h : s.ListsBounded) (y : Key) (d : Debounce) : (s.setKey y d).ListsBounded :=
  listsBounded_of_same h (by simp)

theorem listsBounded_setOutputs (h : s.ListsBounded) (k : Fin 4) (o : Outputs) : (s.setOutputs k o).ListsBounded :=
  listsBounded_of_same h (by simp)

theorem listsBounded_setFrame (h : s.ListsBounded) (k : Fin 4) (f : Fin 8) (x : FrameSlot) :
    (s.setFrame k f x).ListsBounded := listsBounded_of_same h (by simp)

/-- A capture unit whose queue stays within its length (R132). -/
theorem listsBounded_setCapture (h : s.ListsBounded) (k : Fin 4) (c : Capture)
    (hc : c.queue.length ≤ Config.captureDepth) : (s.setCapture k c).ListsBounded := by
  intro j
  by_cases hj : j = k
  · subst hj
    simpa using ⟨(h j).1, hc, (h j).2.2⟩
  · simpa [hj] using h j

/-- A step queue within its length (R24). -/
theorem listsBounded_setQueue (h : s.ListsBounded) (k : Fin 4) (q : List Step) (hq : q.length ≤ Config.queueDepth) :
    (s.setQueue k q).ListsBounded := by
  intro j
  by_cases hj : j = k
  · subst hj
    simpa using ⟨hq, (h j).2⟩
  · simpa [hj] using h j

/-- A result store as R166 fixes it. -/
theorem listsBounded_setResults (h : s.ListsBounded) (k : Fin 4) (r : ResultStore) (hr : r.Lawful) :
    (s.setResults k r).ListsBounded := by
  intro j
  by_cases hj : j = k
  · subst hj
    simpa using ⟨(h j).1, (h j).2.1, hr⟩
  · simpa [hj] using h j

theorem listsBounded_foldl {α : Type} {f : State → α → State} (hf : ∀ u a, u.ListsBounded → (f u a).ListsBounded)
    (xs : List α) (h : s.ListsBounded) : (xs.foldl f s).ListsBounded := by
  induction xs generalizing s with
  | nil => exact h
  | cons a xs ih => exact ih (hf s a h)

theorem listsBounded_takeInOpenOrder {α : Type} {f : State → α → State}
    (hf : ∀ u a, u.ListsBounded → (f u a).ListsBounded) (xs : List α) (h : s.ListsBounded) :
    (s.takeInOpenOrder xs f).ListsBounded := by
  unfold State.takeInOpenOrder
  split
  · exact h
  · exact hf s _ h
  · exact listsBounded_foldl hf _ (listsBounded_of_same h fun _ => ⟨rfl, rfl, rfl⟩)

/-- Whatever the sequencer does on whichever seats keeps the bounds. -/
theorem listsBounded_works (w : Works (fun _ => True) s t) (h : s.ListsBounded) : t.ListsBounded := w.listsBounded h

/-! ### The checks of a command (R178) -/

theorem listsBounded_ite {c : Prop} [Decidable c] (ht : s.ListsBounded) (he : t.ListsBounded) :
    (if c then s else t).ListsBounded := by split <;> assumption

theorem withArg_listsBounded {α : Type} {arg : Option α} {body : α → State × Answer} (h : s.ListsBounded)
    (hb : ∀ x, arg = some x → (body x).1.ListsBounded) : (withArg s arg body).1.ListsBounded := by
  cases arg with
  | none => exact h
  | some x => exact hb x rfl

theorem ifOwner_listsBounded {k : Fin 4} {body : State × Answer} (h : s.ListsBounded) (hb : body.1.ListsBounded) :
    (ifOwner s p k body).1.ListsBounded := by
  unfold ifOwner
  split <;> assumption

theorem ifOwnerOrFree_listsBounded {k : Fin 4} {body : State × Answer} (h : s.ListsBounded)
    (hb : body.1.ListsBounded) : (ifOwnerOrFree s p k body).1.ListsBounded := by
  unfold ifOwnerOrFree
  split <;> assumption

theorem require_listsBounded {c : Bool} {st : Status} {body : State × Answer} (h : s.ListsBounded)
    (hb : c = true → body.1.ListsBounded) : (require s c st body).1.ListsBounded := by
  cases c with
  | false => exact h
  | true => exact hb rfl

theorem done_listsBounded (h : s.ListsBounded) : (done s).1.ListsBounded := h

theorem doneWith_listsBounded (h : s.ListsBounded) (bytes : List Byte) : (doneWith s bytes).1.ListsBounded := h

theorem accepted_listsBounded (h : s.ListsBounded) : (accepted s).1.ListsBounded := h

theorem command_listsBounded {body : State × Answer} (he : command p s body = .next t) (h : s.ListsBounded)
    (hb : body.1.ListsBounded) : t.ListsBounded := by
  unfold command at he
  split at he
  · injection he with he; exact he ▸ h
  · split at he <;> (injection he with he; subst he)
    · exact listsBounded_setPort h _ _
    · exact listsBounded_setPort hb _ _

/-- A command of one seat that its owner alone may give (R13). -/
theorem ownerCommand_listsBounded {α : Type} {arg : Option α} {seat : α → Fin 4} {body : α → State × Answer}
    (he : command p s (withArg s arg fun x => ifOwner s p (seat x) (body x)) = .next t) (h : s.ListsBounded)
    (hb : ∀ x, arg = some x → (body x).1.ListsBounded) : t.ListsBounded :=
  command_listsBounded he h (withArg_listsBounded h fun x hx => ifOwner_listsBounded h (hb x hx))

/-- A command that changes nothing but the answer. -/
theorem readCommand_listsBounded {α : Type} {arg : Option α} {bytes : α → List Byte}
    (he : command p s (withArg s arg fun x => doneWith s (bytes x)) = .next t) (h : s.ListsBounded) : t.ListsBounded :=
  command_listsBounded he h (withArg_listsBounded h fun _ _ => h)

theorem whenDue_listsBounded {due : Bool} {u : State} (he : whenDue s due u = .next t) (h : s.ListsBounded)
    (hu : u.ListsBounded) : t.ListsBounded := by
  injection he with he
  exact he ▸ listsBounded_ite hu h

end Steps
end Machine
end Sys2Proof
end

section
namespace Sys2Proof
namespace Machine
namespace Steps

variable {s t : State} {p : Port}

/-! ### Ports, resets and the load -/

theorem post_listsBounded (h : s.ListsBounded) (p : Port) (n : Notice) : (s.post p n).ListsBounded :=
  listsBounded_setPort h p _

theorem resetSeat_listsBounded (k : Fin 4) (h : s.ListsBounded) : (resetSeat s k).ListsBounded := by
  have hd := listsBounded_setRecord h k { s.record k with owner := none }
  unfold resetSeat
  exact listsBounded_ite (listsBounded_works (works_haltSeat k .portReset trivial) hd) hd

theorem dropGrants_listsBounded (p : Port) (h : s.ListsBounded) : (s.dropGrants p).ListsBounded := by
  unfold State.dropGrants
  exact listsBounded_foldl (fun _ _ hu => listsBounded_of_same hu (by simp)) _ h

theorem portReset_listsBounded (p : Port) (h : s.ListsBounded) : (s.portReset p).ListsBounded := by
  have hc : (s.resetPortRecord p).ListsBounded := listsBounded_setCursor (listsBounded_setPort h p _) p _
  have hseats := listsBounded_takeInOpenOrder (fun u k => resetSeat_listsBounded (s := u) k)
    ((s.resetPortRecord p).seatsOf p) hc
  exact dropGrants_listsBounded p (listsBounded_works (works_arbitrate fun _ _ => trivial) hseats)

theorem coldReset_listsBounded (acc : StoreAccepted) : (s.coldReset acc).ListsBounded := by
  have hk : ∀ k, ∃ x : Seat, (s.coldReset acc).seat k = x.atReset := by
    intro k
    match k with
    | 0 => exact ⟨s.seat 0, rfl⟩
    | 1 => exact ⟨s.seat 1, rfl⟩
    | 2 => exact ⟨s.seat 2, rfl⟩
    | 3 => exact ⟨s.seat 3, rfl⟩
  intro k
  obtain ⟨x, hx⟩ := hk k
  rw [hx]
  exact ⟨Nat.zero_le _, Nat.zero_le _, Nat.zero_le _, by simp [Seat.atReset, Seat.reset]⟩

theorem moveSeat_listsBounded (k : Fin 4) (st : SeatState) (d : Option RackTime) (h : s.ListsBounded) :
    (s.moveSeat k st d).ListsBounded :=
  listsBounded_works (works_relamp k _) (listsBounded_setRecord h k _)

theorem configure_listsBounded (used : Bool) (h : s.ListsBounded) : (s.configure used).ListsBounded := by
  have hl : s.loadCalibration.ListsBounded := by
    unfold State.loadCalibration
    exact listsBounded_foldl (fun _ _ hu => listsBounded_of_same hu (by simp)) _ h
  refine listsBounded_of_same (listsBounded_ite (c := used = true) hl h) fun k => ?_
  simp [State.configure, State.seat]

theorem endLoad_listsBounded (answers : Bool) (h : s.ListsBounded) : (s.endLoad answers).ListsBounded := by
  have hplace : ∀ (u : State) (k : Fin 4), u.ListsBounded → (placeSeat u k).ListsBounded := fun u k hu =>
    moveSeat_listsBounded k _ _ hu
  have hplaced := listsBounded_foldl hplace seatIds (configure_listsBounded (s.eepromUsed answers) h)
  unfold State.endLoad
  dsimp only
  exact listsBounded_works (works_postBoth _) hplaced

/-! ### Sensors -/

theorem vacate_listsBounded (k : Fin 4) (h : s.ListsBounded) : (s.vacate k).ListsBounded :=
  listsBounded_works ((works_setQueue k [] List.nil_suffix trivial).trans
    (works_enterState k .vacant none _ trivial (by decide) rfl)) h

theorem enterState_listsBounded (k : Fin 4) (st : SeatState) (d : Option RackTime) (n : Option Nat)
    (h : s.ListsBounded) : (s.enterState k st d n).ListsBounded :=
  listsBounded_works (works_postSeat k _) (moveSeat_listsBounded k st d h)

theorem faultSeat_listsBounded (k : Fin 4) (c : Cause) (hc : c.isFault = true) (h : s.ListsBounded) :
    (s.faultSeat k c).ListsBounded :=
  listsBounded_works (works_faultSeat k c hc trivial fun _ _ => trivial) h

theorem settleSensor_listsBounded (k : Fin 4) (x : Sensor) (h : s.ListsBounded) : (s.settleSensor k x).ListsBounded :=
  listsBounded_setRecord h k _

theorem presentChanged_listsBounded (k : Fin 4) (h : s.ListsBounded) : (s.presentChanged k).ListsBounded := by
  unfold State.presentChanged
  split
  case h_1 => exact enterState_listsBounded _ _ _ _ h
  case h_2 => exact vacate_listsBounded k h
  case h_3 | h_4 | h_5 | h_6 | h_7 => exact faultSeat_listsBounded k _ rfl h
  case h_8 => exact h

theorem confirmChanged_listsBounded (k : Fin 4) (h : s.ListsBounded) : (s.confirmChanged k).ListsBounded := by
  unfold State.confirmChanged
  split
  case h_1 => exact enterState_listsBounded _ _ _ _ h
  case h_2 | h_3 | h_4 | h_5 => exact faultSeat_listsBounded k _ rfl h
  case h_6 => exact listsBounded_ite (enterState_listsBounded _ _ _ _ h) (vacate_listsBounded k h)
  case h_7 => exact h

theorem tripChanged_listsBounded (k : Fin 4) (h : s.ListsBounded) : (s.tripChanged k).ListsBounded := by
  unfold State.tripChanged
  split
  case h_1 | h_2 | h_3 => exact faultSeat_listsBounded k _ rfl h
  case h_4 => exact h

/-! ### Frames, samples, stores and keys -/

theorem takeRefusal_listsBounded {r : State × Bool} (c : Fin 8) (h : r.1.ListsBounded) :
    (takeRefusal r c).ListsBounded := by
  unfold takeRefusal
  exact listsBounded_ite (listsBounded_works (works_handleRefusal c (fun _ _ => trivial) fun _ _ => trivial) h) h

theorem takeRefusal?_listsBounded {r : State × Option (Fin 8)} (h : r.1.ListsBounded) :
    (takeRefusal? r).ListsBounded := by
  unfold takeRefusal?
  split
  · exact h
  · exact listsBounded_works (works_handleRefusal _ (fun _ _ => trivial) fun _ _ => trivial) h

theorem takeFrameDue_listsBounded (k : Fin 4) (f : Fin 8) (h : s.ListsBounded) : (s.takeFrameDue k f).ListsBounded :=
  takeRefusal?_listsBounded (listsBounded_works ((works_setFrame k f _).trans (works_transmitArbiter k)) h)

/-- The examination stage leaves the capture queue (R135). -/
theorem examine_queue (c : Capture) (ident : BitVec 11) (data : List Byte) : (c.examine ident data).1.queue = c.queue := by
  unfold Capture.examine Capture.examineFor
  grind

/-- The storage stage stores only while the queue is not full (R135). -/
theorem store_queue_length (c : Capture) (ident : BitVec 11) (data : List Byte) (now : RackTime)
    (h : c.queue.length ≤ Config.captureDepth) : (c.store ident data now).queue.length ≤ Config.captureDepth := by
  unfold Capture.store
  split
  · exact h
  · split
    · exact h
    · split
      · next hl => simpa using hl
      · exact h

theorem frameReceived_listsBounded (k : Fin 4) (ident : BitVec 11) (data : List Byte) (h : s.ListsBounded) :
    ((s.examineFrame k ident data).storeFrame k ident data).ListsBounded := by
  have he : (s.examineFrame k ident data).ListsBounded := by
    have hc : (s.setCapture k ((s.capture k).examine ident data).1).ListsBounded :=
      listsBounded_setCapture h k _ (by rw [examine_queue]; exact (h k).2.1)
    unfold State.examineFrame
    dsimp only
    split
    · exact hc
    · exact listsBounded_works (works_deliverExpect k _ trivial fun _ _ => trivial) hc
  exact listsBounded_setCapture he k _ (store_queue_length _ _ _ _ (he k).2.1)

theorem completeConversion_listsBounded (h : s.ListsBounded) : s.completeConversion.ListsBounded := by
  have hp : ∀ m input raw, (s.passSample m input raw).ListsBounded := by
    intro m input raw
    unfold State.passSample
    split
    · dsimp only
      exact listsBounded_ite (listsBounded_works (s := s.setSlot m _) (works_deliverMeas _ _ _ trivial fun _ _ => trivial) h) h
    · exact h
  unfold State.completeConversion
  split
  · exact h
  · exact listsBounded_works works_converterArbiter (listsBounded_ite (s := State.passSample _ _ _ _) (hp _ _ _) h)

theorem keyPressed_listsBounded (k : Fin 4) (a : YesNo) (h : s.ListsBounded) : (s.keyPressed k a).ListsBounded :=
  listsBounded_ite
    (listsBounded_works ((works_closePrompt k trivial).trans (works_deliverPrompt k _ trivial fun _ _ => trivial)) h)
    (listsBounded_works (works_postSeat k _) h)

theorem stopPressed_listsBounded (h : s.ListsBounded) : s.stopPressed.ListsBounded :=
  listsBounded_takeInOpenOrder (f := stopOne) (fun _ k hu => listsBounded_ite
    (listsBounded_works ((works_haltSeat k .stopKey trivial).arbitrated fun _ _ => trivial) hu) hu) _ h

theorem flush_listsBounded (k : Fin 4) (h : s.ListsBounded) : (s.flush k).ListsBounded := by
  have hq : Works (fun _ => True) s (s.setQueue k []) := works_setQueue k [] List.nil_suffix trivial
  exact listsBounded_ite (listsBounded_works
    ((hq.trans (works_leaveFor k .powered _ trivial (by decide) rfl)).arbitrated fun _ _ => trivial) h)
    (listsBounded_works hq h)

theorem clearResults_listsBounded (k : Fin 4) (h : s.ListsBounded) : (s.clearResults k).ListsBounded :=
  listsBounded_setRecord (listsBounded_setResults h k _ ⟨Nat.zero_le _, by simp [ResultStore.empty]⟩) k _

end Steps
end Machine
end Sys2Proof
end

section
namespace Sys2Proof
namespace Machine
namespace Steps

variable {s t : State} {p : Port}

/-! ### Every command and every event -/

theorem setPanelMode_listsBounded (d : Display) (a : AllPoints) (h : s.ListsBounded) :
    (s.setPanelMode d a).ListsBounded := by
  refine listsBounded_of_same h fun k => ?_
  obtain ⟨_, hl, -⟩ := leaveSaver_eq { s with panel := { s.panel with display := d, allPoints := a } }
  unfold State.setPanelMode
  dsimp only
  rw [hl]
  split <;> split <;> exact ⟨rfl, rfl, rfl⟩

theorem setLampMode_listsBounded (k : Fin 4) (m : LampMode) (h : s.ListsBounded) : (s.setLampMode k m).ListsBounded := 
  listsBounded_works (s := s.setLamp k _) (works_relamp k _) h

theorem enterTesting_listsBounded (k : Fin 4) (h : s.ListsBounded) : (s.enterTesting k).ListsBounded :=
  listsBounded_works (works_enterTesting k trivial fun _ _ => trivial) h

theorem stopSeat_listsBounded (k : Fin 4) (h : s.ListsBounded) : (s.haltSeat k .stopSeat).arbitrate.ListsBounded :=
  listsBounded_works ((works_haltSeat k .stopSeat trivial).arbitrated fun _ _ => trivial) h

theorem abortByPolicy_listsBounded (k : Fin 4) (c : Cause) (h : s.ListsBounded) : (s.abortByPolicy k c).ListsBounded :=
  listsBounded_works (works_abortByPolicy k c trivial fun _ _ => trivial) h

theorem writePanel_listsBounded (bs : List Byte) (h : s.ListsBounded) : (s.writePanel p bs).ListsBounded :=
  listsBounded_of_same h fun k => by simp [State.writePanel]

theorem endStore_listsBounded (x : StoreOp) (acc : StoreAccepted) (h : s.ListsBounded) :
    (s.endStore x acc).ListsBounded := by
  have hw : (({ s with eeprom := storedWords s.eeprom x acc } : State).setStore none).ListsBounded := h
  exact post_listsBounded hw _ _

/-- Every command and every event keeps the lists within their lengths. -/
theorem exec_listsBounded (c : Instr) (h : s.ListsBounded) (he : exec c s = .next t) : t.ListsBounded := by
  have hw : ∀ k ∈ s.waitList, True := fun _ _ => trivial
  cases c with
  | status p ps =>
    change execStatus p ps s = _ at he
    unfold execStatus at he
    split at he
    · injection he with he; exact he ▸ h
    · split at he <;> (injection he with he; subst he)
      · exact listsBounded_setPort h _ _
      · exact listsBounded_setPort (listsBounded_setPort h _ _) _ _
  | readNotice p ps =>
    exact command_listsBounded he h (withArg_listsBounded h fun _ _ => doneWith_listsBounded (listsBounded_setPort h _ _) _)
  | setNoticeLevel p ps => exact command_listsBounded he h (withArg_listsBounded h fun _ _ => done_listsBounded (listsBounded_setPort h _ _))
  | setThreshold p ps => exact command_listsBounded he h (withArg_listsBounded h fun _ _ => done_listsBounded (listsBounded_setPort h _ _))
  | portReset p ps => exact command_listsBounded he h (withArg_listsBounded h fun _ _ => done_listsBounded (portReset_listsBounded p h))
  | portResetInput p =>
    have hp := listsBounded_setPort h p { s.port p with resetActive := true }
    change execPortResetInput p s = _ at he
    unfold execPortResetInput at he
    split at he <;> (injection he with he; subst he)
    · exact hp
    · exact listsBounded_setPort hp _ _
    · exact portReset_listsBounded p hp
  | unknownCommand p code ps =>
    change execUnknownCommand p code ps s = _ at he
    unfold execUnknownCommand at he
    split at he <;> (injection he with he; subst he)
    · exact h
    · exact listsBounded_setPort h _ _
  | linkTransactionDiscarded p bytes =>
    change execLinkTransactionDiscarded p bytes s = _ at he
    unfold execLinkTransactionDiscarded at he
    split at he <;> (injection he with he; subst he)
    · exact h
    · exact listsBounded_setPort h _ _
  | claimSeat p ps =>
    exact command_listsBounded he h (withArg_listsBounded h fun _ _ => require_listsBounded h fun _ =>
      listsBounded_setRecord h _ _)
  | releaseSeat p ps =>
    exact ownerCommand_listsBounded he h (fun _ _ => require_listsBounded h fun _ => listsBounded_setRecord h _ _)
  | clamp p ps =>
    refine ownerCommand_listsBounded he h (fun k _ => require_listsBounded h fun _ => require_listsBounded h fun _ => ?_)
    unfold State.clamp
    split
    · exact done_listsBounded (enterState_listsBounded _ _ _ _ h)
    · exact accepted_listsBounded (enterState_listsBounded _ _ _ _ h)
  | unclamp p ps =>
    exact ownerCommand_listsBounded he h (fun _ _ => require_listsBounded h fun _ => accepted_listsBounded (enterState_listsBounded _ _ _ _ h))
  | powerOn p ps =>
    exact ownerCommand_listsBounded he h (fun _ _ => require_listsBounded h fun _ => done_listsBounded (enterState_listsBounded _ _ _ _ h))
  | powerOff p ps =>
    exact ownerCommand_listsBounded he h (fun _ _ => require_listsBounded h fun _ =>
      done_listsBounded (enterState_listsBounded _ _ _ _ (listsBounded_setOutputs h _ _)))
  | start p ps =>
    exact ownerCommand_listsBounded he h (fun k _ => require_listsBounded h fun _ =>
      done_listsBounded (enterTesting_listsBounded k h))
  | stopSeat p ps =>
    exact ownerCommand_listsBounded he h (fun k _ => require_listsBounded h fun _ =>
      done_listsBounded (stopSeat_listsBounded k h))
  | resume p ps =>
    exact ownerCommand_listsBounded he h (fun k _ => require_listsBounded h fun _ =>
      done_listsBounded (enterTesting_listsBounded k h))
  | clearFault p ps =>
    exact command_listsBounded he h (withArg_listsBounded h fun _ _ => ifOwnerOrFree_listsBounded h
      (require_listsBounded h fun _ => done_listsBounded (enterState_listsBounded _ _ _ _ h)))
  | readSeat p ps => exact readCommand_listsBounded he h
  | queueStep p ps =>
    refine ownerCommand_listsBounded he h (fun x _ => require_listsBounded h fun _ => require_listsBounded h fun hl => ?_)
    exact listsBounded_setQueue h _ _ (by simpa using hl)
  | flushQueue p ps => exact ownerCommand_listsBounded he h (fun k _ => doneWith_listsBounded (flush_listsBounded k h) _)
  | abortStep p ps =>
    exact ownerCommand_listsBounded he h (fun x _ => require_listsBounded h fun _ =>
      done_listsBounded (abortByPolicy_listsBounded x.1 .stationAbort h))
  | readStepState p ps => exact readCommand_listsBounded he h
  | readSnapshot p ps => exact readCommand_listsBounded he h
  | takeRegion p ps =>
    refine command_listsBounded he h (withArg_listsBounded h fun r _ => ?_)
    split
    · exact h
    · exact require_listsBounded h fun _ => h
  | shareRegion p ps => exact command_listsBounded he h (withArg_listsBounded h fun _ _ => require_listsBounded h fun _ => h)
  | dropRegion p ps => exact command_listsBounded he h (withArg_listsBounded h fun _ _ => require_listsBounded h fun _ => h)
  | writePattern p ps => exact command_listsBounded he h (withArg_listsBounded h fun _ _ => require_listsBounded h fun _ => h)
  | readPattern p ps => exact readCommand_listsBounded he h
  | readRegions p ps => exact readCommand_listsBounded he h
  | writeProgram p ps => exact command_listsBounded he h (withArg_listsBounded h fun _ _ => require_listsBounded h fun _ => h)
  | eraseProgram p ps => exact command_listsBounded he h (withArg_listsBounded h fun _ _ => require_listsBounded h fun _ => h)
  | readProgram p ps => exact readCommand_listsBounded he h
  | setShadow p ps => exact ownerCommand_listsBounded he h (fun _ _ => require_listsBounded h fun _ => h)
  | readChannel p ps => exact readCommand_listsBounded he h
  | setOutput p ps =>
    exact ownerCommand_listsBounded he h (fun _ _ => require_listsBounded h fun _ => require_listsBounded h fun _ =>
      listsBounded_setOutputs h _ _)
  | readOutputs p ps => exact readCommand_listsBounded he h
  | setFrameSlot p ps => exact ownerCommand_listsBounded he h (fun _ _ => listsBounded_setFrame h _ _ _)
  | readFrameSlot p ps => exact readCommand_listsBounded he h
  | setCalibration p ps => exact command_listsBounded he h (withArg_listsBounded h fun _ _ => h)
  | storeCalibration p ps => exact command_listsBounded he h (withArg_listsBounded h fun _ _ => require_listsBounded h fun _ => h)
  | readCalibration p ps => exact readCommand_listsBounded he h
  | readSlot p ps => exact readCommand_listsBounded he h
  | writeLimit p ps => exact command_listsBounded he h (withArg_listsBounded h fun _ _ => require_listsBounded h fun _ => h)
  | eraseLimit p ps => exact command_listsBounded he h (withArg_listsBounded h fun _ _ => require_listsBounded h fun _ => h)
  | readLimit p ps => exact readCommand_listsBounded he h
  | setFilter p ps => exact ownerCommand_listsBounded he h (fun _ _ => listsBounded_setCapture h _ _ (h _).2.1)
  | setAcceptLong p ps => exact ownerCommand_listsBounded he h (fun _ _ => listsBounded_setCapture h _ _ (h _).2.1)
  | readCapture p ps =>
    refine command_listsBounded he h (withArg_listsBounded h fun k _ => listsBounded_setCapture h _ _ ?_)
    have hk := (h k).2.1
    simp only [State.capture, List.length_tail]
    omega
  | captureStatus p ps =>
    exact command_listsBounded he h (withArg_listsBounded h fun k _ => listsBounded_setCapture h _ _ (h k).2.1)
  | flushCapture p ps => exact ownerCommand_listsBounded he h (fun _ _ => listsBounded_setCapture h _ _ (Nat.zero_le _))
  | setCursor p ps =>
    exact command_listsBounded he h (withArg_listsBounded h fun _ _ => require_listsBounded h fun _ =>
      listsBounded_setCursor h _ _)
  | writePanel p ps =>
    exact command_listsBounded he h (withArg_listsBounded h fun _ _ => require_listsBounded h fun _ =>
      require_listsBounded h fun _ => done_listsBounded (writePanel_listsBounded _ h))
  | readPanel p ps => exact command_listsBounded he h (withArg_listsBounded h fun _ _ => listsBounded_setCursor h _ _)
  | rmwBegin p ps =>
    exact command_listsBounded he h (withArg_listsBounded h fun _ _ => require_listsBounded h fun _ =>
      listsBounded_setCursor h _ _)
  | rmwEnd p ps =>
    exact command_listsBounded he h (withArg_listsBounded h fun _ _ => require_listsBounded h fun _ =>
      listsBounded_setCursor h _ _)
  | panelOn p ps => exact command_listsBounded he h (withArg_listsBounded h fun _ _ => done_listsBounded (setPanelMode_listsBounded _ _ h))
  | panelOff p ps => exact command_listsBounded he h (withArg_listsBounded h fun _ _ => done_listsBounded (setPanelMode_listsBounded _ _ h))
  | allPointsNormal p ps =>
    exact command_listsBounded he h (withArg_listsBounded h fun _ _ => done_listsBounded (setPanelMode_listsBounded _ _ h))
  | allPointsForced p ps =>
    exact command_listsBounded he h (withArg_listsBounded h fun _ _ => done_listsBounded (setPanelMode_listsBounded _ _ h))
  | setLamp p ps => exact ownerCommand_listsBounded he h (fun _ _ => done_listsBounded (setLampMode_listsBounded _ _ h))
  | readPanelState p ps => exact readCommand_listsBounded he h
  | readResult p ps => exact readCommand_listsBounded he h
  | readSummary p ps => exact readCommand_listsBounded he h
  | clearResults p ps =>
    exact command_listsBounded he h (withArg_listsBounded h fun k _ => ifOwnerOrFree_listsBounded h
      (require_listsBounded h fun _ => doneWith_listsBounded (clearResults_listsBounded k h) _))
  | setSerial p ps =>
    exact ownerCommand_listsBounded he h (fun _ _ => require_listsBounded h fun _ => require_listsBounded h fun _ =>
      listsBounded_setRecord h _ _)
  | sensorRawChange k x active =>
    injection he with he
    exact he ▸ listsBounded_setRecord h _ _
  | presentLevelChange k =>
    have hs := settleSensor_listsBounded k .present h
    exact whenDue_listsBounded he h (listsBounded_ite (presentChanged_listsBounded k hs) hs)
  | confirmLevelChange k =>
    have hs := settleSensor_listsBounded k .confirm h
    exact whenDue_listsBounded he h (listsBounded_ite (confirmChanged_listsBounded k hs) hs)
  | tripLevelChange k =>
    have hs := settleSensor_listsBounded k .trip h
    exact whenDue_listsBounded he h (listsBounded_ite (tripChanged_listsBounded k hs) hs)
  | clampTimerExpiry k => exact whenDue_listsBounded he h (faultSeat_listsBounded k _ rfl h)
  | unclampTimerExpiry k => exact whenDue_listsBounded he h (faultSeat_listsBounded k _ rfl h)
  | windowExpiry k => exact whenDue_listsBounded he h (listsBounded_works (works_expireWindow k trivial hw) h)
  | timerTrigger c =>
    exact whenDue_listsBounded he h (takeRefusal_listsBounded c (listsBounded_works (works_takeTimer c) h))
  | channelMove c =>
    exact whenDue_listsBounded he h (takeRefusal_listsBounded c (listsBounded_works (works_moveOnce c) h))
  | frameSlotDue k f => exact whenDue_listsBounded he h (takeFrameDue_listsBounded k f h)
  | transmissionComplete k ack =>
    change execTransmissionComplete k ack s = _ at he
    unfold execTransmissionComplete at he
    split at he <;> (injection he with he; subst he)
    · exact h
    · exact takeRefusal?_listsBounded
        (listsBounded_works ((works_endTransmission k _ ack).trans (works_transmitArbiter k)) h)
  | frameReceived k ident data => exact whenDue_listsBounded he h (frameReceived_listsBounded k ident data h)
  | gateTimeReached m => exact whenDue_listsBounded he h (listsBounded_works (works_openGate m) h)
  | slotDue m =>
    exact whenDue_listsBounded he h (listsBounded_works (s := s.setSlot m _) works_converterArbiter h)
  | conversionComplete m => exact whenDue_listsBounded he h (completeConversion_listsBounded h)
  | storeEnd acc =>
    change execStoreEnd acc s = _ at he
    unfold execStoreEnd at he
    split at he
    · injection he with he; exact he ▸ h
    · exact whenDue_listsBounded he h (endStore_listsBounded _ acc h)
  | keyRawChange key active =>
    injection he with he
    exact he ▸ listsBounded_setKey h _ _
  | keyPress k key =>
    have hs := listsBounded_setKey h (.answer k key) (s.key (.answer k key)).settle
    exact whenDue_listsBounded he h (listsBounded_ite (keyPressed_listsBounded k key hs) hs)
  | stopKeyPress =>
    have hs := listsBounded_setKey h .stop (s.key .stop).settle
    exact whenDue_listsBounded he h (listsBounded_ite (stopPressed_listsBounded hs) hs)
  | coldReset acc =>
    injection he with he
    exact he ▸ coldReset_listsBounded acc
  | loadEnd answers => exact whenDue_listsBounded he h (endLoad_listsBounded answers h)
  | rackResetRelease => exact whenDue_listsBounded he h (listsBounded_of_same h fun _ => ⟨rfl, rfl, rfl⟩)
  | keyRelease key => exact whenDue_listsBounded he h (listsBounded_setKey h _ _)
  | portResetRelease p =>
    injection he with he
    exact he ▸ listsBounded_setPort h _ _

/-! ### Time -/

theorem tickSeat_listsBounded (k : Fin 4) (h : s.ListsBounded) : (tickLamp (tickOutputs s k) k).ListsBounded := by
  have ho : (tickOutputs s k).ListsBounded := listsBounded_setOutputs h k _
  unfold tickLamp
  split
  · exact ho
  · exact listsBounded_of_same ho (by simp)

theorem tick_listsBounded (h : s.ListsBounded) : s.tick.ListsBounded := by
  have hf : (seatIds.foldl (fun x k => tickLamp (tickOutputs x k) k) s).ListsBounded :=
    listsBounded_foldl (fun _ k hu => tickSeat_listsBounded k hu) seatIds h
  unfold State.tick
  generalize seatIds.foldl (fun x k => tickLamp (tickOutputs x k) k) s = u at hf ⊢
  exact hf

theorem advanceTime_listsBounded (h : s.ListsBounded) : s.advanceTime.ListsBounded := by
  have hd : s.drivePins.ListsBounded := listsBounded_of_same h fun _ => ⟨rfl, rfl, rfl⟩
  exact listsBounded_ite hd (tick_listsBounded hd)

/-- Settles O6: a step is a command, a due event, or a microsecond, and each keeps the bounds. -/
theorem stepKeepsListsBounded : Obligations.StepKeepsListsBounded := by
  intro s t h hstep
  unfold step at hstep
  split at hstep
  · unfold idle at hstep
    split at hstep
    · injection hstep with hstep
      exact hstep ▸ advanceTime_listsBounded h
    · exact exec_listsBounded _ (s := { s with draws := s.draws + 1 }) h hstep
  · next c rest _ => exact exec_listsBounded (s := { s with pending := rest }) c h hstep

end Steps
end Machine
end Sys2Proof
end

section
/-! The outcome of a step and the part that decides it (R38). -/

namespace Sys2Proof
namespace Machine
namespace Steps

/-- The part kept in hand stays unless a later one is worse; then the earliest of the worst later ones is taken. -/
theorem worseOf_spec (best : DecidingPart × StepOutcome) (ps : List (DecidingPart × StepOutcome)) :
    (worseOf best ps = best ∧ ∀ x ∈ ps, x.2.rank ≤ best.2.rank) ∨
    (∃ i : Fin ps.length, worseOf best ps = ps[i] ∧ best.2.rank < ps[i].2.rank ∧ (∀ x ∈ ps, x.2.rank ≤ ps[i].2.rank) ∧
      ∀ j : Fin ps.length, j < i → ps[j].2.rank < ps[i].2.rank) := by
  induction ps generalizing best with
  | nil => exact Or.inl ⟨rfl, by simp⟩
  | cons p ps ih =>
    unfold worseOf
    rcases ih (if best.2.rank < p.2.rank then p else best) with ⟨heq, hle⟩ | ⟨i, heq, hlt, hle, hbefore⟩
    · rw [heq]
      split at hle <;> rename_i hp
      · refine Or.inr ⟨⟨0, by simp⟩, by simp [hp], hp, ?_, ?_⟩
        · simpa using hle
        · intro j hj; exact absurd hj (Nat.not_lt_zero _)
      · refine Or.inl ⟨by simp [hp], ?_⟩
        exact List.forall_mem_cons.mpr ⟨Nat.not_lt.mp hp, hle⟩
    · have hb : best.2.rank < ps[i].2.rank ∧ p.2.rank < ps[i].2.rank := by
        split at hlt <;> omega
      refine Or.inr ⟨i.succ, by simpa using heq, by simpa using hb.1, ?_, ?_⟩
      · exact List.forall_mem_cons.mpr ⟨hb.2.le, hle⟩
      · intro j hj
        cases j using Fin.cases with
        | zero => simpa using hb.2
        | succ j => simpa using hbefore j (by simpa using hj)

/-- Settles O36: a worst part decides, and no part before it is as bad. -/
theorem worstPartDecides : Obligations.WorstPartDecides := by
  refine ⟨?_, rfl, fun _ _ => ⟨rfl, rfl, rfl⟩, fun _ _ _ => ⟨rfl, rfl, rfl⟩, rfl, rfl⟩
  intro parts hne
  obtain ⟨p, ps, rfl⟩ := List.exists_cons_of_ne_nil hne
  rcases worseOf_spec p ps with ⟨heq, hle⟩ | ⟨i, heq, hlt, hle, hbefore⟩
  · refine ⟨⟨0, by simp⟩, heq, ?_, fun j hj => absurd hj (Nat.not_lt_zero _)⟩
    show ∀ x ∈ p :: ps, x.2.rank ≤ (worseOf p ps).2.rank
    simpa [heq] using hle
  · have hj : judgeStep (p :: ps) = ps[i] := heq
    rw [hj]
    refine ⟨i.succ, by simp, List.forall_mem_cons.mpr ⟨hlt.le, hle⟩, fun j hji => ?_⟩
    cases j using Fin.cases with
    | zero => simpa using hlt
    | succ j => simpa using hbefore j (by simpa using hji)

end Steps
end Machine
end Sys2Proof
end

section
/-! What the last stages of an event do, one equation per case (R28, R31, R41, R194), and which seats they leave alone. -/

namespace Sys2Proof
namespace Machine
namespace Steps

variable {s t : State} {k : Fin 4}

/-! ### What `Works` leaves of a seat and of a step's conditions -/

/-- Work that may touch no seat leaves the sequencer's part of every seat. -/
theorem untouched (w : Works (fun _ => False) s t) (j : Fin 4) :
    t.record j = s.record j ∧ (t.seat j).queue = (s.seat j).queue ∧ (t.seat j).running = (s.seat j).running ∧
      (t.seat j).results = (s.seat j).results ∧ t.capture j = s.capture j ∧ t.prompt j = s.prompt j :=
  ⟨w.othersRecord j id, w.othersQueue j id, w.othersRunning j id, w.othersResults j id, w.othersCapture j id,
    w.othersPrompt j id⟩

variable {T : Fin 4 → Prop}

theorem works_now (w : Works T s t) : t.now = s.now := congrArg Instant.ms w.clock

theorem works_grant (w : Works T s t) (r : Fin 32) : t.grant r = s.grant r := by
  unfold State.grant
  rw [w.grants]

theorem works_referencesOk (w : Works T s t) (st : Step) : t.referencesOk st = s.referencesOk st := by
  simp only [State.referencesOk, w.programs, w.limits]

theorem works_promptGranted (w : Works T s t) (k : Fin 4) (st : Step) : t.promptGranted k st = s.promptGranted k st := by
  simp only [State.promptGranted, State.wordGranted, w.owner, works_grant w]

/-- Every entry appended stays in front of what follows it (R168). -/
theorem appended_prefix {r q : ResultStore} (h : Appended r q) : r.entries <+: q.entries := by
  induction h with
  | refl => exact List.prefix_rfl
  | tail _ hstep ih =>
    obtain ⟨e, rfl⟩ := hstep
    refine ih.trans ?_
    unfold ResultStore.append
    dsimp only
    split
    · exact List.prefix_append _ _
    · exact List.prefix_rfl

/-! ### One task at a time -/

@[simp] theorem sequence_nil : s.sequence [] = s := by
  unfold State.sequence
  cases s.taskBound [] <;> rfl

/-- One task more than the bound may be allowed, so that the first one can be taken. -/
theorem sequence_succ (ts : List Task) : s.sequence ts = s.runTasks (s.taskBound ts + 1) ts :=
  (sequence_complete ts _ (Nat.le_succ _)).symm

theorem sequence_arbiter_idle (h : s.waitList = []) (ts : List Task) : s.sequence (.arbiter :: ts) = s.sequence ts := by
  rw [sequence_succ, State.runTasks, h]
  exact sequence_complete ts _ (by simp only [State.taskBound, List.length_cons]; omega)

theorem sequence_arbiter_uncovered {ws : List (Fin 4)} (h : s.waitList = k :: ws) (hc : s.covered k = false)
    (ts : List Task) : s.sequence (.arbiter :: ts) = s.sequence ts := by
  rw [sequence_succ, State.runTasks, h]
  simp only [hc]
  exact sequence_complete ts _ (by simp only [State.taskBound, List.length_cons]; omega)

/-- The oldest waiting seat starts, and the arbiter goes on (R31). -/
theorem sequence_arbiter_start {ws : List (Fin 4)} (h : s.waitList = k :: ws) (hc : s.covered k = true)
    (ts : List Task) : s.sequence (.arbiter :: ts) = (State.startHead { s with waitList := ws } k).1.sequence
      (afterStart k (State.startHead { s with waitList := ws } k).2 ++ .arbiter :: ts) := by
  rw [sequence_succ, State.runTasks, h]
  simp only [hc, if_true]
  refine sequence_complete _ _ ?_
  have hl : s.waitList.length = ws.length + 1 := by rw [h]; rfl
  have hq : State.queuedSteps { s with waitList := ws } = s.queuedSteps := rfl
  rcases startHead_measure (s := { s with waitList := ws }) k with ⟨hw, hsame | hlt⟩
  · rw [hsame]
    simp only [State.taskBound, afterStart, List.length_append, List.length_cons, hl, hq]
    simp
  · have ha := afterStart_length k (State.startHead { s with waitList := ws } k).2
    rw [hq] at hlt
    simp only [State.taskBound, List.length_append, List.length_cons, hl] at hw ⊢
    omega

theorem sequence_consider_skip (h : s.considerable k = false) (ts : List Task) :
    s.sequence (.consider k :: ts) = s.sequence ts := by
  rw [sequence_succ, State.runTasks, h]
  exact sequence_complete ts _ (by simp only [State.taskBound, List.length_cons]; omega)

/-- Behind other waiting seats, or with the need not covered, the seat joins the wait list (R30). -/
theorem sequence_consider_wait (h : s.considerable k = true) (hw : s.waitList ≠ [] ∨ s.covered k = false)
    (ts : List Task) : s.sequence (.consider k :: ts) = (s.joinWait k).sequence ts := by
  have hn : ¬ (s.waitList = [] ∧ s.covered k = true) := by
    rintro ⟨he, hc⟩
    rcases hw with hw | hw
    · exact hw he
    · simp [hc] at hw
  rw [sequence_succ, State.runTasks, h, if_pos rfl, if_neg hn]
  refine sequence_complete _ _ ?_
  have hq : (s.joinWait k).queuedSteps = s.queuedSteps := rfl
  have hl : (s.joinWait k).waitList.length = s.waitList.length + 1 := by simp [State.joinWait]
  simp only [State.taskBound, hq, hl, List.length_cons]
  omega

/-- With an empty wait list and the need covered the head step starts (R28, R41). -/
theorem sequence_consider_start (h : s.considerable k = true) (hw : s.waitList = []) (hc : s.covered k = true)
    (ts : List Task) : s.sequence (.consider k :: ts) =
      (s.startHead k).1.sequence (afterStart k (s.startHead k).2 ++ ts) := by
  rw [sequence_succ, State.runTasks, h, if_pos rfl, if_pos ⟨hw, hc⟩]
  refine sequence_complete _ _ ?_
  rcases startHead_measure (s := s) k with ⟨hl, hsame | hlt⟩
  · rw [hsame]
    simp only [State.taskBound, afterStart, List.length_append, List.length_cons]
    simp
  · have ha := afterStart_length k (s.startHead k).2
    simp only [State.taskBound, List.length_append, List.length_cons] at hl ⊢
    omega

theorem considerable_iff (s : State) (k : Fin 4) : s.considerable k = true ↔ (s.record k).state = .testing ∧
    (s.seat k).running = none ∧ k ∉ s.waitList ∧ (s.seat k).queue ≠ [] := by
  simp [State.considerable, and_assoc]

theorem not_considerable_of_state (h : (s.record k).state ≠ .testing) : s.considerable k = false := by
  simp [State.considerable, h]

theorem not_considerable_of_running (h : (s.seat k).running ≠ none) : s.considerable k = false := by
  simp [State.considerable, Option.isNone_iff_eq_none, h]

/-! ### Seats the last stages leave alone -/

/-- A seat that neither waits nor has a head step to consider is left alone by the last stages of an event. -/
theorem works_runTasks_others (n : Nat) (ts : List Task) (hc : s.considerable k = false) (hw : k ∉ s.waitList) :
    Works (· ≠ k) s (s.runTasks n ts) := by
  induction n generalizing s ts with
  | zero => exact Works.refl _ s
  | succ n ih =>
    have hnext : ∀ (t : State) (us : List Task), Works (· ≠ k) s t → Works (· ≠ k) s (t.runTasks n us) := by
      intro t us w
      have hwt : k ∉ t.waitList := fun hk => (w.waits k hk).elim hw (fun h => h rfl)
      refine w.trans (ih us ?_ hwt)
      rw [← Bool.not_eq_true, considerable_iff] at hc ⊢
      rw [w.othersRecord k (fun h => h rfl), w.othersRunning k (fun h => h rfl), w.othersQueue k (fun h => h rfl)]
      exact fun ⟨ht, hr, _, hq⟩ => hc ⟨ht, hr, hw, hq⟩
    match ts with
    | [] => exact Works.refl _ s
    | .arbiter :: ts =>
      unfold State.runTasks
      split
      · exact hnext s ts (Works.refl _ s)
      · next j ws h =>
        have hj : j ≠ k := fun e => hw (by rw [h, e]; exact List.mem_cons_self)
        have hwait : Works (· ≠ k) s { s with waitList := ws } :=
          works_waitList ws fun i hi => Or.inl (by rw [h]; exact List.mem_cons_of_mem _ hi)
        split
        · exact hnext _ _ (hwait.trans (works_startHead j hj))
        · exact hnext s ts (Works.refl _ s)
    | .consider j :: ts =>
      unfold State.runTasks
      split
      · next hj =>
        have hjk : j ≠ k := fun e => by rw [e, hc] at hj; exact Bool.noConfusion hj
        split
        · exact hnext _ _ (works_startHead j hjk)
        · refine hnext _ _ (works_waitList _ fun i hi => ?_)
          rcases List.mem_append.mp hi with hi | hi
          · exact Or.inl hi
          · simp only [List.mem_singleton] at hi
            exact Or.inr (hi ▸ hjk)
      · exact hnext s ts (Works.refl _ s)

theorem works_sequence_others (ts : List Task) (hc : s.considerable k = false) (hw : k ∉ s.waitList) :
    Works (· ≠ k) s (s.sequence ts) := works_runTasks_others _ ts hc hw

/-- What work on other seats leaves of seat `k`. -/
theorem others_keep (w : Works (· ≠ k) s t) :
    t.record k = s.record k ∧ (t.seat k).queue = (s.seat k).queue ∧ (t.seat k).running = (s.seat k).running ∧
      (t.seat k).results = (s.seat k).results :=
  ⟨w.othersRecord k (fun h => h rfl), w.othersQueue k (fun h => h rfl), w.othersRunning k (fun h => h rfl),
    w.othersResults k (fun h => h rfl)⟩

theorem not_waiting_of_others (w : Works (· ≠ k) s t) (hw : k ∉ s.waitList) : k ∉ t.waitList :=
  fun hk => (w.waits k hk).elim hw (fun h => h rfl)

end Steps
end Machine
end Sys2Proof
end

section
/-! What notices, prompts, releases and transitions leave of the seats, the channels and the slots. -/

namespace Sys2Proof
namespace Machine
namespace Steps

variable {s t : State} {k : Fin 4}

/-! ### Notices, lamps and prompts reach no seat, no channel and no slot -/

@[simp] theorem postSeat_keeps (k : Fin 4) (n : Notice) :
    (∀ j, (s.postSeat k n).seat j = s.seat j) ∧ (s.postSeat k n).channels = s.channels ∧
    (s.postSeat k n).slots = s.slots ∧ (∀ c, (s.postSeat k n).channel c = s.channel c) ∧
    (∀ m, (s.postSeat k n).slot m = s.slot m) ∧ (∀ j, (s.postSeat k n).prompt j = s.prompt j) ∧
    (s.postSeat k n).now = s.now ∧ (s.postSeat k n).clock = s.clock := by
  unfold State.postSeat State.postBoth State.post
  split <;> simp

@[simp] theorem relamp_keeps (k : Fin 4) (m : LampMode) :
    (∀ j, (s.relamp k m).seat j = s.seat j) ∧ (s.relamp k m).channels = s.channels ∧
    (s.relamp k m).slots = s.slots ∧ (∀ c, (s.relamp k m).channel c = s.channel c) ∧
    (∀ i, (s.relamp k m).slot i = s.slot i) ∧ (∀ j, (s.relamp k m).prompt j = s.prompt j) ∧
    (s.relamp k m).now = s.now ∧ (s.relamp k m).clock = s.clock := by
  unfold State.relamp State.restartLamp
  split <;> simp

@[simp] theorem closePrompt_keeps (k : Fin 4) :
    (∀ j, (s.closePrompt k).seat j = s.seat j) ∧ (s.closePrompt k).channels = s.channels ∧
    (s.closePrompt k).slots = s.slots ∧ (∀ c, (s.closePrompt k).channel c = s.channel c) ∧
    (∀ m, (s.closePrompt k).slot m = s.slot m) ∧ (s.closePrompt k).now = s.now := by
  unfold State.closePrompt
  simp

@[simp] theorem showRam_keeps :
    (∀ j, s.showRam.seat j = s.seat j) ∧ s.showRam.channels = s.channels ∧ s.showRam.slots = s.slots ∧
    (∀ c, s.showRam.channel c = s.channel c) ∧ (∀ m, s.showRam.slot m = s.slot m) ∧
    (∀ j, s.showRam.prompt j = s.prompt j) ∧ s.showRam.now = s.now := by
  obtain ⟨ls, h, -⟩ := leaveSaver_eq s
  unfold State.showRam
  rw [h]
  exact ⟨fun _ => rfl, rfl, rfl, fun _ => rfl, fun _ => rfl, fun _ => rfl, rfl⟩

@[simp] theorem openPrompt_keeps (k : Fin 4) (pr : Prompt) :
    (∀ j, (s.openPrompt k pr).seat j = s.seat j) ∧ (s.openPrompt k pr).channels = s.channels ∧
    (s.openPrompt k pr).slots = s.slots ∧ (∀ c, (s.openPrompt k pr).channel c = s.channel c) ∧
    (∀ m, (s.openPrompt k pr).slot m = s.slot m) ∧ (s.openPrompt k pr).now = s.now := by
  have hc : ∀ u : State, (∀ j, (u.copyPane k pr).seat j = u.seat j) ∧ (∀ c, (u.copyPane k pr).channel c = u.channel c) ∧
      (∀ m, (u.copyPane k pr).slot m = u.slot m) ∧ (u.copyPane k pr).channels = u.channels ∧
      (u.copyPane k pr).slots = u.slots ∧ (u.copyPane k pr).now = u.now :=
    fun _ => ⟨fun _ => rfl, fun _ => rfl, fun _ => rfl, rfl, rfl, rfl⟩
  unfold State.openPrompt
  simp [hc]

/-- The prompt is open as its record says (R155). -/
theorem openPrompt_prompt (k : Fin 4) (pr : Prompt) : (s.openPrompt k pr).prompt k =
    { isOpen := true, expected := some pr.expected, width := some pr.width } := by
  unfold State.openPrompt
  simp

/-! ### Frees (R69, R110) -/

theorem freeChannel_channel (c d : Fin 8) :
    (s.freeChannel c).channel d = if d = c then Channel.free else s.channel d := by
  have hp : ∀ (u : State) (x : Channel) (d : Fin 8), ((u.unuseBy x).restTarget x).channel d = u.channel d := by
    intro u x d
    unfold State.restTarget State.unuseBy State.unuseProgram
    split <;> split <;> simp
  unfold State.freeChannel
  rw [channel_setChannel, hp]

theorem freeChannels_channel (cs : List (Fin 8)) (d : Fin 8) :
    (s.freeChannels cs).channel d = if d ∈ cs then Channel.free else s.channel d := by
  unfold State.freeChannels
  induction cs generalizing s with
  | nil => simp
  | cons c cs ih =>
    rw [List.foldl_cons, ih, freeChannel_channel]
    by_cases hd : d = c <;> simp [hd]

@[simp] theorem freeChannel_slot (c : Fin 8) (m : Fin 6) : (s.freeChannel c).slot m = s.slot m := by
  unfold State.freeChannel State.restTarget State.unuseBy State.unuseProgram
  split <;> split <;> simp

@[simp] theorem freeChannels_slot (cs : List (Fin 8)) (m : Fin 6) : (s.freeChannels cs).slot m = s.slot m := by
  unfold State.freeChannels
  induction cs generalizing s with
  | nil => rfl
  | cons c cs ih => rw [List.foldl_cons, ih, freeChannel_slot]

theorem freeSlot_slot (m n : Fin 6) : (s.freeSlot m).slot n = if n = m then MeasSlot.free else s.slot n := by
  unfold State.freeSlot State.unuseLimit
  split <;> simp [slot_setSlot]

theorem freeSlots_slot (ms : List (Fin 6)) (n : Fin 6) :
    (s.freeSlots ms).slot n = if n ∈ ms then MeasSlot.free else s.slot n := by
  unfold State.freeSlots
  induction ms generalizing s with
  | nil => simp
  | cons m ms ih =>
    rw [List.foldl_cons, ih, freeSlot_slot]
    by_cases hn : n = m <;> simp [hn]

@[simp] theorem freeSlots_keeps (ms : List (Fin 6)) : (∀ j, (s.freeSlots ms).seat j = s.seat j) ∧
    (∀ c, (s.freeSlots ms).channel c = s.channel c) := by
  have h1 : ∀ (u : State) (m : Fin 6), (∀ j, (u.freeSlot m).seat j = u.seat j) ∧
      ∀ c, (u.freeSlot m).channel c = u.channel c := by
    intro u m
    unfold State.freeSlot State.unuseLimit
    split <;> simp
  unfold State.freeSlots
  induction ms generalizing s with
  | nil => exact ⟨fun _ => rfl, fun _ => rfl⟩
  | cons m ms ih =>
    obtain ⟨hseat, hchannel⟩ := ih (s := s.freeSlot m)
    exact ⟨fun j => (hseat j).trans ((h1 s m).1 j), fun c => (hchannel c).trans ((h1 s m).2 c)⟩

/-! ### The outputs a free channel leaves at rest (R69, R86) -/

@[simp] theorem rest_restAll (o : Outputs) (x : Target) : o.restAll.rest x = o.restAll := by
  cases x <;> rfl

@[simp] theorem restAll_rest (o : Outputs) (x : Target) : (o.rest x).restAll = o.restAll := by
  cases x <;> rfl

@[simp] theorem restAll_restAll (o : Outputs) : o.restAll.restAll = o.restAll := rfl

/-- A freed channel rests the output it drives, so outputs at rest stay as they are and all come to the same rest. -/
theorem freeChannel_outputs (c : Fin 8) (j : Fin 4) : ∃ o, ((s.freeChannel c).seat j).outputs = o ∧
    o.restAll = (s.seat j).outputs.restAll ∧ ((s.seat j).outputs = (s.seat j).outputs.restAll → o = (s.seat j).outputs) := by
  have hu : ∀ x : Channel, (s.unuseBy x).seat j = s.seat j := by
    intro x
    unfold State.unuseBy State.unuseProgram
    split <;> simp
  refine ⟨_, rfl, ?_⟩
  unfold State.freeChannel
  simp only [setChannel_keeps]
  unfold State.restTarget
  split
  · next i x _ _ =>
    by_cases hj : j = i
    · subst hj
      simp only [seat_setOutputs_same, hu, restAll_rest, true_and]
      intro h
      rw [h, rest_restAll]
    · simp [hj, hu]
  · simp [hu]

theorem freeChannels_outputs (cs : List (Fin 8)) (j : Fin 4) :
    ((s.freeChannels cs).seat j).outputs.restAll = (s.seat j).outputs.restAll := by
  unfold State.freeChannels
  induction cs generalizing s with
  | nil => rfl
  | cons c cs ih =>
    obtain ⟨o, ho, hr, -⟩ := freeChannel_outputs (s := s) c j
    rw [List.foldl_cons, ih, ho, hr]

/-! ### Transitions (R9, R10) -/

theorem enterState_seat_same (st : SeatState) (d : Option RackTime) (n : Option Nat) :
    (s.enterState k st d n).seat k = { s.seat k with record := (s.record k).enter st d } := by
  unfold State.enterState State.postState State.moveSeat
  simp

theorem enterState_seat_other {j : Fin 4} (st : SeatState) (d : Option RackTime) (n : Option Nat) (hj : j ≠ k) :
    (s.enterState k st d n).seat j = s.seat j := by
  unfold State.enterState State.postState State.moveSeat
  simp [hj]

@[simp] theorem enterState_keeps (k : Fin 4) (st : SeatState) (d : Option RackTime) (n : Option Nat) :
    (∀ c, (s.enterState k st d n).channel c = s.channel c) ∧ (∀ m, (s.enterState k st d n).slot m = s.slot m) ∧
    (s.enterState k st d n).waitList = s.waitList ∧ (s.enterState k st d n).now = s.now ∧
    (s.enterState k st d n).clock = s.clock := by
  unfold State.enterState State.postState State.moveSeat
  simp

theorem eachFrame_eq (f : FrameSlot → FrameSlot) : ∃ fs, s.eachFrame k f = s.setSeat k { s.seat k with frames := fs } ∧
    ∀ i : Fin 8, fs[i] = f (s.frame k i) := by
  have h : ∀ (xs : List (Fin 8)) (u : State), xs.Nodup → ∃ fs, xs.foldl (fun t i => t.setFrame k i (f (t.frame k i))) u =
      u.setSeat k { u.seat k with frames := fs } ∧ ∀ i : Fin 8, fs[i] = if i ∈ xs then f (u.frame k i) else u.frame k i := by
    intro xs
    induction xs with
    | nil => exact fun u _ => ⟨(u.seat k).frames, (setSeat_self u k).symm, fun i => by simp [State.frame]⟩
    | cons x xs ih =>
      intro u hn
      obtain ⟨hx, hxs⟩ := List.nodup_cons.mp hn
      obtain ⟨fs, heq, hfs⟩ := ih (u.setFrame k x (f (u.frame k x))) hxs
      refine ⟨fs, ?_, fun i => ?_⟩
      · rw [List.foldl_cons, heq]
        simp [State.setFrame]
      · rw [hfs i, frame_setFrame]
        by_cases hi : i = x
        · subst hi
          simp [hx]
        · simp [hi]
  obtain ⟨fs, heq, hfs⟩ := h ids8 s ids8_nodup
  exact ⟨fs, heq, fun i => by rw [hfs i, if_pos (mem_ids8 i)]⟩

@[simp] theorem eachFrame_keeps (k : Fin 4) (f : FrameSlot → FrameSlot) : (∀ c, (s.eachFrame k f).channel c = s.channel c) ∧
    (∀ m, (s.eachFrame k f).slot m = s.slot m) ∧ (s.eachFrame k f).waitList = s.waitList ∧
    (∀ j, ((s.eachFrame k f).seat j).outputs = (s.seat j).outputs) := by
  obtain ⟨fs, heq, -⟩ := eachFrame_eq (s := s) (k := k) f
  rw [heq]
  refine ⟨by simp, by simp, by simp, fun j => ?_⟩
  by_cases hj : j = k
  · subst hj; simp
  · rw [seat_setSeat_other _ _ _ _ hj]

@[simp] theorem unwait_keeps (k : Fin 4) : (∀ j, (s.unwait k).seat j = s.seat j) ∧
    (∀ c, (s.unwait k).channel c = s.channel c) ∧ (∀ m, (s.unwait k).slot m = s.slot m) :=
  ⟨fun _ => rfl, fun _ => rfl, fun _ => rfl⟩

theorem leaveTesting_channel (c : Fin 8) :
    (s.leaveTesting k).channel c = if (s.channel c).onSeat k = true then Channel.free else s.channel c := by
  have hm : c ∈ s.channelsOf k ↔ (s.channel c).onSeat k = true := by
    simp [State.channelsOf, mem_ids8]
  unfold State.leaveTesting State.unscheduleFrames State.restOutputs
  simp [freeChannels_channel, hm]

theorem leaveTesting_slot (m : Fin 6) :
    (s.leaveTesting k).slot m = if (s.slot m).seat = some k then MeasSlot.free else s.slot m := by
  have hm : m ∈ s.slotsOf k ↔ (s.slot m).seat = some k := by
    simp [State.slotsOf, mem_slotIds]
  unfold State.leaveTesting State.unscheduleFrames State.restOutputs
  simp [freeSlots_slot, hm]

theorem leaveTesting_outputs : ((s.leaveTesting k).seat k).outputs = (s.seat k).outputs.restAll := by
  unfold State.leaveTesting State.unscheduleFrames State.restOutputs
  simp [freeChannels_outputs]

theorem leaveTesting_waitList : (s.leaveTesting k).waitList = s.waitList.filter (· != k) := by
  unfold State.leaveTesting State.unwait State.unscheduleFrames State.restOutputs
  simp

/-- Leaving TESTING leaves the sequencer's part of every seat. -/
theorem leaveTesting_untouched (j : Fin 4) : (s.leaveTesting k).record j = s.record j ∧
    ((s.leaveTesting k).seat j).queue = (s.seat j).queue ∧ ((s.leaveTesting k).seat j).running = (s.seat j).running ∧
    ((s.leaveTesting k).seat j).results = (s.seat j).results := by
  obtain ⟨hr, hq, hrun, hres, -, -⟩ := untouched (works_leaveTesting (s := s) k) j
  exact ⟨hr, hq, hrun, hres⟩

/-- A seat that leaves TESTING: its record takes the state, its queue, running step and results stay (R9, R10). -/
theorem leaveFor_seat (st : SeatState) (n : Option Nat) : (s.leaveFor k st n).record k = (s.record k).enter st none ∧
    ((s.leaveFor k st n).seat k).queue = (s.seat k).queue ∧ ((s.leaveFor k st n).seat k).running = (s.seat k).running ∧
    ((s.leaveFor k st n).seat k).results = (s.seat k).results ∧
    ((s.leaveFor k st n).seat k).outputs = (s.seat k).outputs.restAll := by
  obtain ⟨hr, hq, hrun, hres⟩ := leaveTesting_untouched (s := s) (k := k) k
  have hout := leaveTesting_outputs (s := s) (k := k)
  unfold State.leaveFor
  simp only [State.record, enterState_seat_same] at hr ⊢
  simp only [hr, hq, hrun, hres, hout, and_self]

theorem leaveFor_seat_other {j : Fin 4} (st : SeatState) (n : Option Nat) (hj : j ≠ k) :
    (s.leaveFor k st n).record j = s.record j ∧ ((s.leaveFor k st n).seat j).queue = (s.seat j).queue ∧
    ((s.leaveFor k st n).seat j).running = (s.seat j).running ∧ ((s.leaveFor k st n).seat j).results = (s.seat j).results := by
  obtain ⟨hr, hq, hrun, hres⟩ := leaveTesting_untouched (s := s) (k := k) j
  unfold State.leaveFor
  rw [State.record, enterState_seat_other _ _ _ hj]
  exact ⟨hr, hq, hrun, hres⟩

theorem leaveFor_channel (st : SeatState) (n : Option Nat) (c : Fin 8) :
    (s.leaveFor k st n).channel c = if (s.channel c).onSeat k = true then Channel.free else s.channel c := by
  unfold State.leaveFor
  rw [← leaveTesting_channel]
  simp

theorem leaveFor_waitList (st : SeatState) (n : Option Nat) :
    (s.leaveFor k st n).waitList = s.waitList.filter (· != k) := by
  unfold State.leaveFor
  rw [← leaveTesting_waitList]
  simp

end Steps
end Machine
end Sys2Proof
end

section
/-! The commands of the step queue (R26, R27, R42). -/

namespace Sys2Proof
namespace Machine
namespace Steps

variable {s : State} {p : Port} {k : Fin 4}

/-- QUEUE_STEP from the owner, with a record that is in order. -/
theorem exec_queueStep {ps : List Byte} {st : Step} (hp : queueStepArg ps = some (k, st))
    (ho : (s.record k).owner = some p) : exec (.queueStep p ps) s = command p s
      (require s ((s.record k).state != .vacant && (s.record k).state != .fault) .wrongState
        (require s ((s.seat k).queue.length < Config.queueDepth) .full
          (doneWith (s.setQueue k ((s.seat k).queue ++ [st])) (e8 ((s.seat k).queue.length + 1))))) := by
  change command p s (withArg s (queueStepArg ps) _) = _
  rw [hp, withArg_some, ifOwner_owner ho]

/-- FLUSH_QUEUE from the owner. -/
theorem exec_flushQueue (ht : s.takes p) (ho : (s.record k).owner = some p) :
    exec (.flushQueue p [byteOf k.val]) s = answered (s.flush k) p .ok [byteOf (s.seat k).queue.length] := by
  change command p s (withArg s (indexArg 4 [byteOf k.val]) _) = _
  rw [indexArg_byteOf (by decide), withArg_some, ifOwner_owner ho]
  exact command_taken_pair ht _ _ _

/-- A flushed waiting seat is POWERED, off the wait list, and the arbiter does not reach it (R42). -/
theorem flushed_waiting {n : Option Nat} : let t := ((s.setQueue k []).leaveFor k .powered n).arbitrate
    (t.record k).state = .powered ∧ (t.record k).supply = .on ∧ (t.seat k).queue = [] ∧ k ∉ t.waitList ∧
      (t.seat k).running = (s.seat k).running ∧ (t.seat k).results = (s.seat k).results := by
  obtain ⟨hrec, hqueue, hrun, hres, -⟩ := leaveFor_seat (s := s.setQueue k []) (k := k) .powered n
  have hwait : k ∉ ((s.setQueue k []).leaveFor k .powered n).waitList := by
    simp [leaveFor_waitList]
  have w := works_sequence_others [.arbiter] (not_considerable_of_state (by rw [hrec]; simp [SeatRecord.enter])) hwait
  obtain ⟨trec, tqueue, trun, tres⟩ := others_keep w
  refine ⟨?_, ?_, ?_, not_waiting_of_others w hwait, ?_, ?_⟩
  · exact (congrArg SeatRecord.state (trec.trans hrec))
  · exact (congrArg SeatRecord.supply (trec.trans hrec))
  · exact tqueue.trans (hqueue.trans (by simp))
  · exact trun.trans (hrun.trans (by simp))
  · exact tres.trans (hres.trans (by simp))

/-- Settles O33: the checks in the order of R178, then what the owner's command does. -/
theorem stepQueueCommands : Obligations.StepQueueCommands := by
  refine ⟨fun p ps s ht => ⟨fun hp => ?_, fun k st hp ho => ?_⟩, fun p k s ht ho => ?_⟩
  · change command p s (withArg s (queueStepArg ps) _) = _
    rw [hp, withArg_none]
    exact command_taken_pair ht _ _ _
  · rw [exec_queueStep hp ho]
    refine ⟨fun hst => ?_, fun hv hf hl => ?_, fun hv hf hl => ?_⟩
    · have hc : ((s.record k).state != .vacant && (s.record k).state != .fault) = false := by
        rcases hst with h | h <;> simp [h]
      rw [hc, require_false]
      exact command_taken_pair ht _ _ _
    · have hc : decide ((s.seat k).queue.length < Config.queueDepth) = false := decide_eq_false (Nat.not_lt.mpr hl)
      simp only [hc, bne_iff_ne.mpr hv, bne_iff_ne.mpr hf, Bool.and_self, require_true, require_false]
      exact command_taken_pair ht _ _ _
    · have hc : decide ((s.seat k).queue.length < Config.queueDepth) = true := decide_eq_true hl
      simp only [hc, bne_iff_ne.mpr hv, bne_iff_ne.mpr hf, Bool.and_self, require_true]
      exact command_taken_pair ht _ _ _
  · rw [exec_flushQueue ht ho]
    refine ⟨fun h => ?_, fun hst hw => ?_⟩
    · have hn : ¬ ((s.record k).state = .testing ∧ s.waitList.contains k = true) := by
        simpa [or_iff_not_imp_left] using h
      rw [State.flush, if_neg hn]
    · refine ⟨_, rfl, ?_⟩
      rw [State.flush, if_pos (by simpa using ⟨hst, hw⟩)]
      exact flushed_waiting

end Steps
end Machine
end Sys2Proof
end

section
/-! The step, program and limit records on the link: what the encoders spell is read back (R25, R26, R62, R117, R180 to
R182). -/

namespace Sys2Proof
namespace Machine
namespace Steps

/-! ### Named values and numbers (R180) -/

theorem targetArg_code (t : Target) : targetArg (byteOf t.code) = some t := by
  cases t with
  | fs f => revert f; decide
  | _ => rfl

theorem policyArg_code (x : FailPolicy) : policyArg (byteOf x.code) = some x := by cases x <;> rfl

theorem expectModeArg_code (x : ExpectMode) : expectModeArg (byteOf x.code) = some x := by cases x <;> rfl

theorem expectedArg_code (x : Expected) : expectedArg (byteOf x.code) = some x := by cases x <;> rfl

theorem limitModeArg_code (x : LimitMode) : limitModeArg (byteOf x.code) = some x := by cases x <;> rfl

theorem ruleArg_code {r : LengthRule} (h : r.fits = true) : ruleArg (byteOf r.code) = some r := by
  cases r with
  | any => rfl
  | exact n =>
    have hn : n ≤ 8 := by simpa [LengthRule.fits] using h
    have hb : (byteOf n).toNat = n := byteOf_toNat (by omega)
    simp [ruleArg, LengthRule.code, hb, hn]

/-- A length rule of 9 to FEh names no rule (R181). -/
theorem ruleArg_none {b : Byte} (h9 : 9 ≤ b.toNat) (hfe : b.toNat ≤ 0xFE) : ruleArg b = none := by
  have hff : b ≠ 0xFF := fun e => by simp [e] at hfe
  unfold ruleArg
  rw [if_neg (by omega), if_neg hff]

theorem e8_eq (n : Nat) : e8 n = [byteOf n] := rfl

theorem e16_eq (n : Nat) : e16 n = bytes16 n := rfl

theorem eFlag_eq (b : Bool) : eFlag b = [if b then 1 else 0] := by cases b <;> rfl

theorem word16_read (w : Word) : word16 (byteOf w.toNat) (byteOf (w.toNat / 256)) = w := by
  rw [word16_bytes]
  simp

theorem identArg_read (i : BitVec 11) : identArg (byteOf i.toNat) (byteOf (i.toNat / 256)) = some i := by
  have hi := i.isLt
  unfold identArg
  rw [word16_bytes_toNat (by omega), if_pos (by omega), word16_bytes]
  congr 1
  apply BitVec.eq_of_toNat_eq
  simp

theorem addrArg_read (a : PatternAddr) : addrArg (byteOf a.toNat) (byteOf (a.toNat / 256)) = some a := by
  have ha := a.isLt
  unfold addrArg
  rw [word16_bytes_toNat (by omega), if_pos (by omega), word16_bytes]
  congr 1
  apply BitVec.eq_of_toNat_eq
  simp

theorem vec8Arg_toList (v : Vector Byte 8) : vec8Arg v.toList = some v := by
  obtain ⟨⟨l⟩, h⟩ := v
  match l, h with
  | [a, b, c, d, e, f, g, i], _ => rfl

/-! ### The parts of a step record (R181) -/

theorem triggerArg_bytes {t : Trigger} (h : t.fits = true) :
    ∃ kind lo hi, eTrigger t = [kind, lo, hi] ∧ triggerArg kind lo hi = some t := by
  cases t with
  | timer p =>
    obtain ⟨h1, h2⟩ : 1 ≤ p ∧ p ≤ 65535 := by simpa [Trigger.fits] using h
    refine ⟨_, _, _, rfl, ?_⟩
    change triggerArg 0 (byteOf p) (byteOf (p / 256)) = _
    simp [triggerArg, word16_bytes_toNat (n := p) (by omega), h1]
  | frame f => exact ⟨_, _, _, rfl, by revert f; decide⟩
  | chain e => exact ⟨_, _, _, rfl, by revert e; decide⟩

theorem gateArg_bytes {g : Gate} (h : g.fits = true) :
    ∃ kind lo hi, eGate g = [kind, lo, hi] ∧ gateArg kind lo hi = some g := by
  cases g with
  | start => exact ⟨_, _, _, rfl, rfl⟩
  | delay d =>
    have hd : d ≤ 65535 := by simpa [Gate.fits] using h
    refine ⟨_, _, _, rfl, ?_⟩
    change gateArg 1 (byteOf d) (byteOf (d / 256)) = _
    simp [gateArg, word16_bytes_toNat (n := d) (by omega)]
  | mark e => exact ⟨_, _, _, rfl, by revert e; decide⟩

theorem entryArg_bytes (e : ChannelEntry) (h : e.trigger.fits = true) (rest : List Byte) :
    entryArg (e.bytes ++ rest) = some (e, rest) := by
  obtain ⟨kind, lo, hi, hb, ht⟩ := triggerArg_bytes h
  simp only [ChannelEntry.bytes, hb, List.cons_append, List.nil_append, entryArg, finArg_byteOf (n := 48) (by decide),
    targetArg_code, flagArg_ite, ht]

theorem measArg_bytes (m : Measurement) (h : m.gate.fits = true) (rest : List Byte) :
    measArg (m.bytes ++ rest) = some (m, rest) := by
  obtain ⟨kind, lo, hi, hb, hg⟩ := gateArg_bytes h
  simp only [Measurement.bytes, hb, List.cons_append, List.nil_append, measArg, finArg_byteOf (n := 8) (by decide),
    finArg_byteOf (n := 256) (by decide), hg]

/-- Items that are each read back are read back as a list. -/
theorem manyArg_flatMap {α : Type} {item : List Byte → Option (α × List Byte)} {enc : α → List Byte} :
    ∀ (xs : List α) (rest : List Byte), (∀ x ∈ xs, ∀ r, item (enc x ++ r) = some (x, r)) →
      manyArg item xs.length (xs.flatMap enc ++ rest) = some (xs, rest)
  | [], rest, _ => rfl
  | x :: xs, rest, h => by
    simp only [List.length_cons, manyArg, List.flatMap_cons, List.append_assoc, h x List.mem_cons_self,
      manyArg_flatMap xs rest fun y hy => h y (List.mem_cons_of_mem _ hy)]

theorem patternArg_bytes (p : FramePattern) (h : p.rule.fits = true) :
    patternArg p.bytes.toList p.care.toList (byteOf p.rule.code) = some p := by
  simp only [patternArg, vec8Arg_toList, ruleArg_code h]

/-- The after pattern's flag, bytes, care masks and rule as they are sent (R181). -/
theorem afterArg_bytes (a : Option FramePattern) (h : ∀ p ∈ a, p.rule.fits = true) :
    ∃ flag bytes care rule, afterBytes a = flag :: (bytes ++ (care ++ [rule])) ∧ bytes.length = 8 ∧ care.length = 8 ∧
      afterArg flag bytes care rule = some a := by
  cases a with
  | none => exact ⟨0, zeros 8, zeros 8, 0, rfl, rfl, rfl, rfl⟩
  | some p =>
    refine ⟨1, p.bytes.toList, p.care.toList, byteOf p.rule.code, by simp [afterBytes], by simp, by simp, ?_⟩
    simp [afterArg, patternArg_bytes p (h p rfl), flagArg]

theorem expectationArg_bytes (e : Expectation) (rest : List Byte) (hrule : e.pattern.rule.fits = true)
    (hreq : 1 ≤ e.required ∧ e.required ≤ 15) (hafter : ∀ a ∈ e.after, a.rule.fits = true) :
    expectationArg (e.bytes ++ rest) = some (e, rest) := by
  obtain ⟨flag, ab, ac, ar, hbytes, hab, hac, harg⟩ := afterArg_bytes e.after hafter
  have hshape : e.bytes ++ rest = byteOf e.mode.code :: byteOf e.ident.toNat :: byteOf (e.ident.toNat / 256) ::
      byteOf e.mask.toNat :: byteOf (e.mask.toNat / 256) :: byteOf e.pattern.rule.code ::
      (e.pattern.bytes.toList ++ (e.pattern.care.toList ++ (byteOf e.required :: flag :: (ab ++ (ac ++ (ar :: rest)))))) := by
    simp [Expectation.bytes, hbytes, bytes16]
  have hpb : e.pattern.bytes.toList.length = 8 := by simp
  have hpc : e.pattern.care.toList.length = 8 := by simp
  have hreq8 : (byteOf e.required).toNat = e.required := byteOf_toNat (by omega)
  have hdrop16 : ∀ (x y z : List Byte), x.length = 8 → y.length = 8 → (x ++ (y ++ z)).drop 16 = z := by
    intro x y z hx hy
    rw [← List.append_assoc, List.drop_left' (by simp [hx, hy])]
  have hmid : ∀ (x y z : List Byte), x.length = 8 → y.length = 8 → ((x ++ (y ++ z)).drop 8).take 8 = y := by
    intro x y z hx hy
    rw [List.drop_left' hx, List.take_left' hy]
  rw [hshape]
  simp only [expectationArg, hdrop16 _ _ _ hpb hpc, hdrop16 _ _ _ hab hac, hmid _ _ _ hpb hpc, hmid _ _ _ hab hac,
    List.take_left' hpb, List.take_left' hab, expectModeArg_code, identArg_read, patternArg_bytes _ hrule, harg, hreq8,
    if_pos hreq]

theorem promptArg_bytes (p : Prompt) (rest : List Byte) (h : 1 ≤ p.width ∧ p.width ≤ 128) :
    promptArg (p.bytes ++ rest) = some (p, rest) := by
  have hw : (byteOf p.width).toNat = p.width := byteOf_toNat (by omega)
  simp only [Prompt.bytes, bytes16, List.cons_append, List.nil_append, promptArg, addrArg_read, expectedArg_code, hw,
    if_pos h]

theorem optionalArg_bytes {α : Type} {item : List Byte → Option (α × List Byte)} {enc : α → List Byte} (x : Option α)
    (rest : List Byte) (h : ∀ y ∈ x, item (enc y ++ rest) = some (y, rest)) :
    optionalArg item x.isSome ((x.map enc).getD [] ++ rest) = some (x, rest) := by
  cases x with
  | none => rfl
  | some y => simp [optionalArg, h y rfl]

/-- A step record within its ranges is read back (R181). -/
theorem stepArg_bytes {st : Step} (h : st.Fits) : stepArg st.bytes = some st := by
  have hw := h.window
  have hwin : (word16 (byteOf st.window) (byteOf (st.window / 256))).toNat = st.window :=
    word16_bytes_toNat (by omega)
  have hne : (byteOf st.entries.length).toNat = st.entries.length :=
    byteOf_toNat (by have := h.entries.1; omega)
  have hnm : (byteOf st.measurements.length).toNat = st.measurements.length :=
    byteOf_toNat (by have := h.measurements.1; omega)
  have hentries := manyArg_flatMap (item := entryArg) st.entries (st.measurements.flatMap Measurement.bytes ++
    ((st.expectation.map Expectation.bytes).getD [] ++ ((st.prompt.map Prompt.bytes).getD [] ++ [])))
    fun e he r => entryArg_bytes e (h.entries.2 e he) r
  have hmeas := manyArg_flatMap (item := measArg) st.measurements
    ((st.expectation.map Expectation.bytes).getD [] ++ ((st.prompt.map Prompt.bytes).getD [] ++ []))
    fun m hm r => measArg_bytes m (h.measurements.2 m hm) r
  have hexp := optionalArg_bytes (item := expectationArg) st.expectation ((st.prompt.map Prompt.bytes).getD [] ++ [])
    fun e he => by
      obtain ⟨hr, h1, h15, ha⟩ := h.expectation e he
      exact expectationArg_bytes e _ hr ⟨h1, h15⟩ ha
  have hprompt := optionalArg_bytes (item := promptArg) st.prompt [] fun p hp => promptArg_bytes p _ (h.prompt p hp)
  have hshape : st.bytes = byteOf st.id.toNat :: byteOf (st.id.toNat / 256) :: byteOf st.window ::
      byteOf (st.window / 256) :: byteOf st.policy.code :: byteOf st.entries.length :: byteOf st.measurements.length ::
      (if st.expectation.isSome then 1 else 0) :: (if st.prompt.isSome then 1 else 0) ::
      (st.entries.flatMap ChannelEntry.bytes ++ (st.measurements.flatMap Measurement.bytes ++
        ((st.expectation.map Expectation.bytes).getD [] ++ ((st.prompt.map Prompt.bytes).getD [] ++ [])))) := by
    simp [Step.bytes, bytes16]
  rw [hshape]
  simp only [stepArg, policyArg_code, flagArg_ite, hwin, hne, hnm, if_pos (And.intro h.entries.1
    (And.intro h.measurements.1 hw.1)), hentries, hmeas, hexp, hprompt, word16_read]

theorem queueStepArg_bytes (k : Fin 4) {st : Step} (h : st.Fits) :
    queueStepArg (byteOf k.val :: st.bytes) = if stepOk st then some (k, st) else none := by
  simp only [queueStepArg, finArg_byteOf (n := 4) (by decide), stepArg_bytes h]

/-! ### What R26 asks of a step -/

theorem bitmapOk_iff (pr : Option Prompt) :
    bitmapOk pr = true ↔ ∀ p, pr = some p → p.addr.toNat + p.width - 1 ≤ 16383 := by
  cases pr <;> simp [bitmapOk]

theorem targetsDistinct_iff (es : List ChannelEntry) : targetsDistinct es = true ↔
    ∀ (i j : Nat) (x y : ChannelEntry), i < j → es[i]? = some x → es[j]? = some y → x.target ≠ y.target := by
  simp only [targetsDistinct, decide_eq_true_eq, List.Nodup, List.pairwise_map]
  rw [List.pairwise_iff_getElem]
  constructor
  · intro h i j x y hij hx hy
    obtain ⟨hi, rfl⟩ := List.getElem?_eq_some_iff.mp hx
    obtain ⟨hj, rfl⟩ := List.getElem?_eq_some_iff.mp hy
    exact h i j hi hj hij
  · intro h i j hi hj hij
    exact h i j _ _ hij (List.getElem?_eq_getElem hi) (List.getElem?_eq_getElem hj)

theorem chainsOk_iff (n i : Nat) (es : List ChannelEntry) : chainsOk n i es = true ↔
    ∀ (j : Nat) (x : ChannelEntry) (e : Fin 3), es[j]? = some x → x.trigger = .chain e → e.val ≠ i + j ∧ e.val < n := by
  have hone : ∀ (i : Nat) (t : Trigger), chainOk n i t = true ↔ ∀ e : Fin 3, t = .chain e → e.val ≠ i ∧ e.val < n := by
    intro i t
    cases t <;> simp [chainOk]
  induction es generalizing i with
  | nil => simp [chainsOk]
  | cons x es ih =>
    simp only [chainsOk, Bool.and_eq_true, hone, ih]
    constructor
    · rintro ⟨hx, hes⟩ j y e hy ht
      cases j with
      | zero =>
        obtain rfl : x = y := by simpa using hy
        exact hx e ht
      | succ j =>
        have := hes j y e (by simpa using hy) ht
        omega
    · intro h
      refine ⟨fun e ht => h 0 x e rfl ht, fun j y e hy ht => ?_⟩
      have := h (j + 1) y e (by simpa using hy) ht
      omega

theorem gatesOk_iff (n : Nat) (ms : List Measurement) : ms.all (fun m => gateOk n m.gate) = true ↔
    ∀ m ∈ ms, ∀ e, m.gate = .mark e → e.val < n := by
  have hone : ∀ g : Gate, gateOk n g = true ↔ ∀ e, g = .mark e → e.val < n := by
    intro g
    cases g <;> simp [gateOk]
  simp [hone]

/-- At most one entry is marked keep exactly when no later one beside an earlier one is. -/
theorem oneKeep_iff (es : List ChannelEntry) : (es.filter (·.keep)).length ≤ 1 ↔
    ∀ (i j : Nat) (x y : ChannelEntry), i < j → es[i]? = some x → es[j]? = some y → x.keep = true → y.keep = false := by
  induction es with
  | nil => simp
  | cons a es ih =>
    have hsplit : (∀ (i j : Nat) (x y : ChannelEntry), i < j → (a :: es)[i]? = some x → (a :: es)[j]? = some y →
        x.keep = true → y.keep = false) ↔ (a.keep = true → ∀ y ∈ es, y.keep = false) ∧
        ∀ (i j : Nat) (x y : ChannelEntry), i < j → es[i]? = some x → es[j]? = some y → x.keep = true → y.keep = false := by
      constructor
      · refine fun h => ⟨fun ha y hy => ?_, fun i j x y hij hx hy => h (i + 1) (j + 1) x y (by omega) hx hy⟩
        obtain ⟨j, hj⟩ := List.mem_iff_getElem?.mp hy
        exact h 0 (j + 1) a y (by omega) rfl hj ha
      · rintro ⟨ha, hes⟩ i j x y hij hx hy
        cases j with
        | zero => omega
        | succ j =>
          cases i with
          | zero =>
            obtain rfl : a = x := by simpa using hx
            exact fun hk => ha hk y (List.mem_of_getElem? hy)
          | succ i => exact hes i j x y (by omega) hx hy
    rw [hsplit, ← ih]
    cases hk : a.keep with
    | false => simp [hk]
    | true =>
      have hnone : (es.filter (·.keep)).length ≤ 0 ↔ ∀ y ∈ es, y.keep = false := by
        simp [List.filter_eq_nil_iff]
      simp only [hk, List.filter_cons_of_pos, List.length_cons, forall_const]
      rw [← hnone]
      omega

theorem stepOk_iff (st : Step) : stepOk st = true ↔
    (∀ pr, st.prompt = some pr → pr.addr.toNat + pr.width - 1 ≤ 16383) ∧
    (∀ (i j : Nat) (x y : ChannelEntry), i < j → st.entries[i]? = some x → st.entries[j]? = some y →
      x.target ≠ y.target) ∧
    (∀ (i : Nat) (x : ChannelEntry) (e : Fin 3), st.entries[i]? = some x → x.trigger = .chain e →
      e.val ≠ i ∧ e.val < st.entries.length) ∧
    (∀ m ∈ st.measurements, ∀ e, m.gate = .mark e → e.val < st.entries.length) ∧
    (∀ (i j : Nat) (x y : ChannelEntry), i < j → st.entries[i]? = some x → st.entries[j]? = some y →
      x.keep = true → y.keep = false) := by
  simp only [stepOk, Bool.and_eq_true, decide_eq_true_eq, bitmapOk_iff, targetsDistinct_iff, chainsOk_iff, gatesOk_iff,
    oneKeep_iff, Nat.zero_add, and_assoc]

/-! ### A length rule that names none (R181) -/

theorem patternArg_badRule {rule : Byte} (h : ruleArg rule = none) (bytes care : List Byte) :
    patternArg bytes care rule = none := by
  unfold patternArg
  rw [h]
  cases vec8Arg bytes <;> cases vec8Arg care <;> rfl

theorem afterArg_badRule {rule : Byte} (h : ruleArg rule = none) (flag : Byte) (bytes care : List Byte) :
    afterArg flag bytes care rule = none := by
  unfold afterArg
  rw [patternArg_badRule h]
  rcases flagArg flag with _ | _ | _ <;> rfl

/-- The pattern's length rule is byte 5 of an expectation and the after pattern's is byte 40; neither may be 9 to FEh. -/
theorem expectationArg_badRule {bytes : List Byte} {b : Byte} (hb : bytes[5]? = some b ∨ bytes[40]? = some b)
    (h9 : 9 ≤ b.toNat) (hfe : b.toNat ≤ 0xFE) : expectationArg bytes = none := by
  have hrule := ruleArg_none h9 hfe
  unfold expectationArg
  split
  case h_2 => rfl
  case h_1 mode i0 i1 m0 m1 rule rest =>
    split
    case h_2 => rfl
    case h_1 required flag tail hrest =>
      split
      case h_2 => rfl
      case h_1 aRule rest' htail =>
        rcases hb with hb | hb
        · obtain rfl : rule = b := by simpa using hb
          rw [patternArg_badRule hrule]
          cases expectModeArg mode <;> cases identArg i0 i1 <;> cases identArg m0 m1 <;> rfl
        · have h34 : rest[34]? = some b := by simpa using hb
          have h16 : tail[16]? = some b := by
            have := congrArg (·[18]?) hrest
            simpa [List.getElem?_drop, h34] using this.symm
          have h0 : aRule = b := by
            have := congrArg (·[0]?) htail
            simpa [List.getElem?_drop, h16] using this.symm
          subst h0
          rw [afterArg_badRule hrule]
          cases expectModeArg mode <;> cases identArg i0 i1 <;> cases identArg m0 m1 <;>
            cases patternArg (rest.take 8) ((rest.drop 8).take 8) rule <;> rfl

theorem queueStepArg_badExpectation {bytes : List Byte} (h : expectationArg bytes = none) (k : Fin 4)
    (i0 i1 w0 w1 policy prompt : Byte) :
    queueStepArg ([byteOf k.val, i0, i1, w0, w1, policy, 0, 0, 1, prompt] ++ bytes) = none := by
  have hstep : stepArg ([i0, i1, w0, w1, policy, 0, 0, 1, prompt] ++ bytes) = none := by
    have hf : flagArg 1 = some true := rfl
    simp only [List.cons_append, List.nil_append, stepArg, hf]
    cases policyArg policy with
    | none => rfl
    | some x =>
      cases flagArg prompt with
      | none => rfl
      | some y => simp [manyArg, optionalArg, h]
  simp only [List.cons_append, List.nil_append] at hstep
  simp only [List.cons_append, List.nil_append, queueStepArg, hstep, finArg_byteOf (n := 4) (by decide)]

/-! ### Program and limit records (R182) -/

theorem writeProgramArg_bytes (i : Fin 48) {x : Program} (h : x.Fits) :
    writeProgramArg (byteOf i.val :: eProgram x) = some (i, x) := by
  have hstep : (byteOf x.step).toNat = x.step := byteOf_toNat (by have := h.step; simp at this; omega)
  have hwrap : (byteOf x.wrap).toNat = x.wrap := byteOf_toNat (by have := h.wrap; omega)
  have hblock : (byteOf x.block).toNat = x.block := byteOf_toNat (by have := h.block; simp at this; omega)
  have hcount : (word16 (byteOf x.count) (byteOf (x.count / 256))).toNat = x.count :=
    word16_bytes_toNat (by have := h.count; omega)
  have hmark : (word16 (byteOf x.mark) (byteOf (x.mark / 256))).toNat = x.mark :=
    word16_bytes_toNat (by have := h.mark; omega)
  have hdir : (if decide (x.direction = .down) = true then Direction.down else .up) = x.direction := by
    cases x.direction <;> rfl
  have hmode : (if decide (x.mode = .repeat) = true then RunMode.repeat else .oneShot) = x.mode := by
    cases x.mode <;> rfl
  have hall := And.intro h.step (And.intro h.wrap (And.intro h.count.1 (And.intro h.count.2 (And.intro h.block h.mark))))
  simp only [eProgram, e8_eq, e16_eq, bytes16, eFlag_eq, List.cons_append, List.nil_append, writeProgramArg, programArg,
    finArg_byteOf (n := 48) (by decide), flagArg_ite, addrArg_read, hstep, hwrap, hblock, hcount, hmark, if_pos hall,
    hdir, hmode]

theorem word16_ofInt {i : Int} (h1 : -32768 ≤ i) (h2 : i ≤ 32767) :
    (word16 (byteOf (BitVec.ofInt 16 i).toNat) (byteOf ((BitVec.ofInt 16 i).toNat / 256))).toInt = i := by
  rw [word16_read, BitVec.toInt_ofInt]
  exact Int.bmod_eq_of_le (by omega) (by omega)

theorem writeLimitArg_bytes (i : Fin 256) {x : Limit} (h : x.Fits) :
    writeLimitArg (byteOf i.val :: eLimit x) = some (i, x) := by
  have hl := h.low
  have hh := h.high
  have hlow := word16_ofInt hl (hh.1.trans hh.2)
  have hhigh := word16_ofInt (hl.trans hh.1) hh.2
  have hguard : (word16 (byteOf x.guard) (byteOf (x.guard / 256))).toNat = x.guard :=
    word16_bytes_toNat (by have := h.guard; omega)
  have hsettle : (byteOf x.settle).toNat = x.settle := byteOf_toNat (by have := h.settle; omega)
  have hshift : (byteOf x.shift).toNat = x.shift := byteOf_toNat (by have := h.shift; omega)
  have hinterval : (byteOf x.interval).toNat = x.interval := byteOf_toNat (by have := h.interval; omega)
  have hall := And.intro hh.1 (And.intro h.guard (And.intro h.settle.1 (And.intro h.shift h.interval.1)))
  simp only [eLimit, e8_eq, e16_eq, eInt16, bytes16, List.cons_append, List.nil_append, writeLimitArg, limitArg,
    finArg_byteOf (n := 256) (by decide), limitModeArg_code, hlow, hhigh, hguard, hsettle, hshift, hinterval, if_pos hall]

/-- Settles O32. -/
theorem recordsRoundTrip : Obligations.RecordsRoundTrip := by
  refine ⟨fun k st h => queueStepArg_bytes k h, stepOk_iff, ?_, fun i x h => writeProgramArg_bytes i h,
    fun i x h => writeLimitArg_bytes i h⟩
  rintro bytes ⟨b, hb, h9, hfe⟩
  have hnone := expectationArg_badRule hb h9 hfe
  exact ⟨hnone, fun k i0 i1 w0 w1 policy prompt => queueStepArg_badExpectation hnone k i0 i1 w0 w1 policy prompt⟩

end Steps
end Machine
end Sys2Proof
end

section
/-! What the end and the abort of a running step leave of its seat (R39 to R41, R44). -/

namespace Sys2Proof
namespace Machine
namespace Steps

variable {s t : State} {k : Fin 4}

/-! ### The result entry (R40) -/

theorem recordResult_seat (e : ResultEntry) :
    (s.recordResult k e).seat k = { s.seat k with results := (s.seat k).results.append e } := by
  unfold State.recordResult
  simp

@[simp] theorem recordResult_keeps (k : Fin 4) (e : ResultEntry) :
    (∀ c, (s.recordResult k e).channel c = s.channel c) ∧ (∀ m, (s.recordResult k e).slot m = s.slot m) := by
  unfold State.recordResult
  simp

/-! ### The end of a step (R39, R40) -/

/-- What a step's end frees before its entry is made. -/
def released (s : State) (k : Fin 4) (r : Running) : State :=
  ((s.freeChannels r.unkept).keepChannel k r).freeSlots r.slots

theorem works_released (r : Running) : Works (fun _ => False) s (released s k r) :=
  (works_freeChannels _).trans ((works_keepChannel k r).trans (works_freeSlots _))

theorem endStep_eq (r : Running) : s.endStep k r =
    (((((released s k r).closePrompt k).stopExpectation k).recordResult k (s.endEntry r)).clearRunning k) := by
  have he : (((released s k r).closePrompt k).stopExpectation k).endEntry r = s.endEntry r := by
    have hnow : (((released s k r).closePrompt k).stopExpectation k).now = s.now := by
      simp [State.stopExpectation, works_now (works_released r)]
    simp only [State.endEntry, hnow]
  rw [← he]
  rfl

/-- The seat of a step that ended: no running step, its entry appended, its record and queue as before (R40). -/
theorem endStep_seat (r : Running) : (s.endStep k r).record k = s.record k ∧
    ((s.endStep k r).seat k).queue = (s.seat k).queue ∧ ((s.endStep k r).seat k).running = none ∧
    ((s.endStep k r).seat k).results = (s.seat k).results.append (s.endEntry r) := by
  obtain ⟨hrec, hq, -, hres, -, -⟩ := untouched (works_released (s := s) (k := k) r) k
  rw [endStep_eq]
  unfold State.clearRunning State.stopExpectation
  simp only [State.record] at hrec ⊢
  simp [recordResult_seat, hrec, hq, hres]

theorem endStep_channel (r : Running) (c : Fin 8) :
    (s.endStep k r).channel c = ((s.freeChannels r.unkept).keepChannel k r).channel c := by
  rw [endStep_eq]
  simp [State.clearRunning, State.stopExpectation, released]

theorem keepChannel_slot (r : Running) (m : Fin 6) : (s.keepChannel k r).slot m = s.slot m := by
  unfold State.keepChannel
  split
  · rfl
  · dsimp only
    split <;> simp

theorem endStep_slot (r : Running) (m : Fin 6) :
    (s.endStep k r).slot m = if m ∈ r.slots then MeasSlot.free else s.slot m := by
  rw [endStep_eq]
  simp [State.clearRunning, State.stopExpectation, released, freeSlots_slot, keepChannel_slot]

@[simp] theorem keepChannel_waitList (r : Running) : (s.keepChannel k r).waitList = s.waitList := by
  unfold State.keepChannel
  split
  · rfl
  · dsimp only
    split <;> simp

theorem endStep_waitList (r : Running) : (s.endStep k r).waitList = s.waitList := by
  rw [endStep_eq]
  simp [State.clearRunning, State.stopExpectation, released]

/-! ### What follows the end (R41) -/

/-- Nothing queued, and no hold: the seat leaves TESTING for POWERED. -/
theorem settle_powered {o : StepOutcome} {p : FailPolicy} (ho : ¬ (2 ≤ o.rank ∧ p = .holdSeat))
    (hq : (s.seat k).queue = []) : s.settle k o p = s.leaveFor k .powered none := by
  rw [State.settle, if_neg ho, if_pos hq]

/-- A step queued behind, and no hold: the seat stays in TESTING. -/
theorem settle_stays {o : StepOutcome} {p : FailPolicy} (ho : ¬ (2 ≤ o.rank ∧ p = .holdSeat))
    (hq : (s.seat k).queue ≠ []) : s.settle k o p = s := by
  rw [State.settle, if_neg ho, if_neg hq]

/-- A failing or aborted step under HOLD_SEAT: the queue is flushed and the seat enters HOLD. -/
theorem settle_hold {o : StepOutcome} {p : FailPolicy} (ho : 2 ≤ o.rank) (hp : p = .holdSeat) :
    s.settle k o p = (s.setQueue k []).leaveFor k .hold (some (s.seat k).queue.length) := by
  rw [State.settle, if_pos ⟨ho, hp⟩]

/-- The last stages of an event leave a seat alone that has just left TESTING. -/
theorem sequence_after_leaveFor (st : SeatState) (n : Option Nat) (hst : st ≠ .testing) (ts : List Task) :
    Works (· ≠ k) (s.leaveFor k st n) ((s.leaveFor k st n).sequence ts) := by
  refine works_sequence_others ts (not_considerable_of_state ?_) ?_
  · rw [(leaveFor_seat st n).1]
    exact hst
  · simp [leaveFor_waitList]

theorem finishStep_eq (r : Running) : s.finishStep k r =
    ((s.endStep k r).settle k (judgeStep r.judged).2 r.step.policy).sequence [.arbiter, .consider k] := rfl

/-- A step that ends without a hold and with nothing queued behind it: the seat returns to POWERED (R40, R41). -/
theorem finishStep_powered {r : Running} (ho : ¬ (2 ≤ (judgeStep r.judged).2.rank ∧ r.step.policy = .holdSeat))
    (hq : (s.seat k).queue = []) : (s.finishStep k r).record k = (s.record k).enter .powered none ∧
    ((s.finishStep k r).seat k).running = none ∧
    ((s.finishStep k r).seat k).results = (s.seat k).results.append (s.endEntry r) := by
  obtain ⟨erec, equeue, erun, eres⟩ := endStep_seat (s := s) (k := k) r
  have hset : (s.endStep k r).settle k (judgeStep r.judged).2 r.step.policy = (s.endStep k r).leaveFor k .powered none :=
    settle_powered ho (equeue.trans hq)
  obtain ⟨lrec, -, lrun, lres, -⟩ := leaveFor_seat (s := s.endStep k r) (k := k) .powered none
  rw [finishStep_eq, hset]
  obtain ⟨trec, -, trun, tres⟩ := others_keep
    (sequence_after_leaveFor (s := s.endStep k r) (k := k) .powered none (by decide) [.arbiter, .consider k])
  exact ⟨trec.trans (lrec.trans (by rw [erec])), trun.trans (lrun.trans erun), tres.trans (lres.trans eres)⟩

/-! ### An abort (R44) -/

/-- The state in which an aborted step's entry is made: its snapshot taken, its channels and slots freed. -/
def aborting (s : State) (k : Fin 4) (r : Running) (c : Cause) : State :=
  ((((s.setRecord k { s.record k with snapshot := some (s.snapshotOf k r c) }).freeChannels r.channels).freeSlots
    r.slots).closePrompt k).stopExpectation k

theorem abortRunning_eq {r : Running} {c : Cause} (hr : (s.seat k).running = some r) : s.abortRunning k c =
    ((aborting s k r c).recordResult k ((aborting s k r c).abortEntry r (s.snapshotOf k r c))).clearRunning k := by
  simp only [State.abortRunning, hr]
  rfl

theorem aborting_seat (r : Running) (c : Cause) :
    (aborting s k r c).record k = { s.record k with snapshot := some (s.snapshotOf k r c) } ∧
    ((aborting s k r c).seat k).queue = (s.seat k).queue ∧ ((aborting s k r c).seat k).results = (s.seat k).results ∧
    ((aborting s k r c).seat k).outputs.restAll = (s.seat k).outputs.restAll ∧ (aborting s k r c).now = s.now := by
  have w : Works (fun _ => False) (s.setRecord k { s.record k with snapshot := some (s.snapshotOf k r c) }) _ :=
    (works_freeChannels r.channels).trans (works_freeSlots r.slots)
  obtain ⟨hrec, hq, -, hres, -, -⟩ := untouched w k
  have hout := freeChannels_outputs (s := s.setRecord k { s.record k with snapshot := some (s.snapshotOf k r c) })
    r.channels k
  have hnow := works_now w
  unfold aborting State.stopExpectation
  simp only [State.record] at hrec hq hres hout hnow ⊢
  refine ⟨?_, ?_, ?_, ?_, ?_⟩
  · simpa using hrec
  · simpa using hq
  · simpa using hres
  · simpa using hout
  · simpa using hnow

/-- The seat of an aborted step: no running step, its entry appended, its queue and state as before (R44). -/
theorem abortRunning_seat {r : Running} {c : Cause} (hr : (s.seat k).running = some r) :
    ((s.abortRunning k c).record k).state = (s.record k).state ∧
    ((s.abortRunning k c).seat k).queue = (s.seat k).queue ∧ ((s.abortRunning k c).seat k).running = none ∧
    ((s.abortRunning k c).seat k).outputs.restAll = (s.seat k).outputs.restAll ∧
    ∃ e, ((s.abortRunning k c).seat k).results = (s.seat k).results.append e ∧ e.stepId = r.step.id ∧
      e.outcome = .aborted ∧ e.deciding = .noPart ∧ e.cause = some c ∧ e.start = r.start ∧
      e.elapsed = s.now - r.start := by
  obtain ⟨hrec, hq, hres, hout, hnow⟩ := aborting_seat (s := s) (k := k) r c
  rw [abortRunning_eq hr]
  unfold State.clearRunning
  simp only [State.record] at hrec ⊢
  simp only [seat_setRunning_same, recordResult_seat, hrec, hq, hres, hout, true_and]
  exact ⟨_, rfl, rfl, rfl, rfl, rfl, rfl, by rw [State.abortEntry, hnow]⟩

theorem abortRunning_channel {r : Running} {c : Cause} (hr : (s.seat k).running = some r) (d : Fin 8) :
    (s.abortRunning k c).channel d = if d ∈ r.channels then Channel.free else s.channel d := by
  rw [abortRunning_eq hr]
  simp [State.clearRunning, aborting, State.stopExpectation, freeChannels_channel]

theorem abortRunning_slot {r : Running} {c : Cause} (hr : (s.seat k).running = some r) (m : Fin 6) :
    (s.abortRunning k c).slot m = if m ∈ r.slots then MeasSlot.free else s.slot m := by
  rw [abortRunning_eq hr]
  simp [State.clearRunning, aborting, State.stopExpectation, freeSlots_slot]

end Steps
end Machine
end Sys2Proof
end

section
/-! The converter: gates and due slots, the rotation, the code of a voltage and the end of a conversion (R103, R111 to
R114). -/

namespace Sys2Proof
namespace Machine
namespace Steps

variable {s : State} {m : Fin 6}

/-! ### The rotation (R113) -/

/-- Before a slot the rotation looks at exactly those nearer after the pointer. -/
theorem rotationOrder_split (p n : Fin 6) :
    rotationOrder p = (rotationOrder p).take (n - p - 1).val ++ n :: (rotationOrder p).drop ((n - p - 1).val + 1) ∧
      ∀ j ∈ (rotationOrder p).take (n - p - 1).val, j - p - 1 < n - p - 1 := by
  revert p n
  decide

theorem nextSlot_first {n : Fin 6} (hn : (s.slot n).due = true)
    (hfirst : ∀ j, (s.slot j).due = true → n - s.rotation - 1 ≤ j - s.rotation - 1) : s.nextSlot = some n := by
  obtain ⟨hsplit, hbefore⟩ := rotationOrder_split s.rotation n
  unfold State.nextSlot
  rw [hsplit, List.find?_eq_some_iff_append]
  refine ⟨hn, _, _, rfl, fun j hj => ?_⟩
  have hlt := hbefore j hj
  simp only [Bool.not_eq_eq_eq_not, Bool.not_true, Bool.eq_false_iff]
  exact fun hdue => absurd (hfirst j hdue) (not_le.mpr hlt)

theorem nextSlot_only (hm : (s.slot m).due = true) (ho : ∀ j, j ≠ m → (s.slot j).due = false) :
    s.nextSlot = some m := by
  refine nextSlot_first hm fun j hj => ?_
  by_cases e : j = m
  · rw [e]
  · simp [ho j e] at hj

theorem nextSlot_none (h : ∀ j, (s.slot j).due = false) : s.nextSlot = none := by
  simp [State.nextSlot, List.find?_eq_none, h]

/-! ### The arbiter (R113) -/

theorem converterArbiter_busy (h : s.converter ≠ .idle) : s.converterArbiter = s := by
  unfold State.converterArbiter
  split
  · rfl
  · next hi => exact absurd hi h

theorem converterArbiter_none (h : ∀ j, (s.slot j).due = false) : s.converterArbiter = s := by
  unfold State.converterArbiter
  split
  · rfl
  · rw [nextSlot_none h]

/-- The slot the arbiter takes starts its conversion, which samples the input of its seat (R103, R113). -/
theorem converterArbiter_starts {n : Fin 6} {k : Fin 4} {i : Fin 8} {x : Fin 256} {l : Limit} (hc : s.converter = .idle)
    (hn : s.nextSlot = some n) (hk : (s.slot n).seat = some k) (hi : (s.slot n).input = some i)
    (hx : (s.slot n).limit = some x) (hl : (s.limit x).limit = some l) : s.converterArbiter =
      { s.setSlot n { s.slot n with due := false, nextDue := (s.slot n).nextDue.map (fun t => msAfter t l.interval) } with
        rotation := n,
        converter := .converting n (s.slot n).binding (rackInput k i) (s.clock.afterUs 20)
          (rawCode (s.inputVolts (rackInput k i))) } := by
  have hlim : s.slotLimit n = some l := by simp [State.slotLimit, hx, hl]
  simp only [State.converterArbiter, hc, hn, State.startConversion, hk, hi, hlim]
  rfl

@[simp] theorem setSlot_setSlot (x y : MeasSlot) : (s.setSlot m x).setSlot m y = s.setSlot m y := by
  simp [State.setSlot]

/-! ### Gates and due slots (R111, R112) -/

theorem gated_of_ready (h : s.gateReady m = true) : (s.slot m).state = .gated := by
  simp only [State.gateReady, Bool.and_eq_true, decide_eq_true_eq] at h
  exact h.1

/-- A slot with its gate just opened. -/
def openedSlot (s : State) (m : Fin 6) : State :=
  s.setSlot m { s.slot m with state := .sampling, gateTime := none, nextDue := some s.now, due := true }

theorem exec_gateTimeReached (h : s.gateReady m = true) :
    exec (.gateTimeReached m) s = .next (openedSlot s m).converterArbiter := by
  change whenDue s (s.gateReady m) (s.openGate m) = _
  rw [h, whenDue_true, State.openGate]
  simp only [gated_of_ready h, if_true]
  rfl

theorem exec_slotDue (h : s.slotDueReady m = true) :
    exec (.slotDue m) s = .next (s.setSlot m { s.slot m with due := true }).converterArbiter := by
  change whenDue s (s.slotDueReady m) (s.takeSlotDue m) = _
  rw [h, whenDue_true]
  rfl

/-- With an IDLE converter and no other slot due, a slot that becomes due starts its conversion. -/
theorem converterArbiter_due {x : MeasSlot} {k : Fin 4} {i : Fin 8} {j : Fin 256} {l : Limit} {t0 : RackTime}
    (hc : s.converter = .idle) (hdue : ∀ n, (s.slot n).due = false) (hd : x.due = true) (hk : x.seat = some k) (hi : x.input = some i)
    (hj : x.limit = some j) (hl : (s.limit j).limit = some l) (ht : x.nextDue = some t0) :
    (s.setSlot m x).converterArbiter = { s.setSlot m { x with due := false, nextDue := some (msAfter t0 l.interval) } with
        rotation := m,
        converter := .converting m x.binding (rackInput k i) (s.clock.afterUs 20)
          (rawCode (s.inputVolts (rackInput k i))) } := by
  have hn : (s.setSlot m x).nextSlot = some m := nextSlot_only (by simpa using hd) fun n hnm => by simp [hnm, hdue n]
  rw [converterArbiter_starts (n := m) (k := k) (i := i) (x := j) (l := l) (by simpa using hc) hn (by simpa using hk)
    (by simpa using hi) (by simpa using hj) (by simpa using hl), setSlot_setSlot, slot_setSlot_same, ht]
  rfl

/-! ### The code of a voltage (R103) -/

theorem rawCode_toNat (v : Rat) : (rawCode v).toNat = min 4095 (v / (5 / 2) * 4096).floor.toNat := by
  unfold rawCode
  rw [BitVec.toNat_ofNat]
  omega

theorem rawCode_below {v : Rat} (h : v < 0) : rawCode v = 0 := by
  apply BitVec.eq_of_toNat_eq
  have hf : (v / (5 / 2) * 4096).floor < 0 := by
    rw [Rat.floor_lt_iff]
    push_cast
    linarith
  rw [rawCode_toNat]
  simp
  omega

theorem rawCode_between {v : Rat} {n : Nat} (hn : n ≤ 4095) (hlo : (n : Rat) * (5 / 2 / 4096) ≤ v)
    (hhi : v < ((n : Rat) + 1) * (5 / 2 / 4096)) : (rawCode v).toNat = n := by
  have hf : (v / (5 / 2) * 4096).floor = (n : Int) := by
    have hge : (n : Int) ≤ (v / (5 / 2) * 4096).floor := by
      rw [Rat.le_floor_iff]
      push_cast
      linarith
    have hlt : (v / (5 / 2) * 4096).floor < (n : Int) + 1 := by
      rw [Rat.floor_lt_iff]
      push_cast
      linarith
    omega
  rw [rawCode_toNat, hf]
  simp
  omega

theorem rawCode_above {v : Rat} (h : 5 / 2 ≤ v) : rawCode v = 4095 := by
  apply BitVec.eq_of_toNat_eq
  have hf : (4096 : Int) ≤ (v / (5 / 2) * 4096).floor := by
    rw [Rat.le_floor_iff]
    push_cast
    linarith
  rw [rawCode_toNat]
  simp
  omega

/-! ### The end of a conversion (R114) -/

theorem exec_conversionComplete {b : Nat} {input : Fin 32} {done : Instant} {raw : BitVec 12}
    (hc : s.converter = .converting m b input done raw) (hd : Instant.reached s.clock done = true) :
    exec (.conversionComplete m) s = .next (State.converterArbiter
      { (if (s.slot m).samplesUnder b then s.passSample m input raw else s) with converter := .idle }) := by
  change whenDue s (s.conversionReady m) s.completeConversion = _
  have hr : s.conversionReady m = true := by simp [State.conversionReady, hc, hd]
  rw [hr, whenDue_true]
  simp only [State.completeConversion, hc]

theorem not_samplesUnder {x : MeasSlot} {b : Nat} (h : x.state ≠ .sampling ∨ x.binding ≠ b) : x.samplesUnder b = false := by
  rw [← Bool.not_eq_true]
  simpa [MeasSlot.samplesUnder, or_iff_not_imp_left] using h

/-- A code that is passed on is counted, calibrated and processed (R114, R121). -/
theorem passSample_eq {k : Fin 4} {i : Fin 2} {x : Fin 256} {l : Limit} (input : Fin 32) (raw : BitVec 12)
    (hk : (s.slot m).seat = some k) (hi : (s.slot m).measurement = some i) (hx : (s.slot m).limit = some x)
    (hl : (s.limit x).limit = some l) {y : MeasSlot}
    (hy : y = MeasSlot.takeSample { s.slot m with samples := (s.slot m).samples + 1 } l (calibrate raw (s.cal input))) :
    s.passSample m input raw =
      if y.state = .latched then (s.setSlot m y).deliverMeas k i y.latchReport else s.setSlot m y := by
  have hlim : s.slotLimit m = some l := by simp [State.slotLimit, hx, hl]
  simp only [State.passSample, hlim, hk, hi, hy]

/-- A sample makes no slot due. -/
theorem takeSample_due (x : MeasSlot) (l : Limit) (c : Int) (h : x.due = false) : (x.takeSample l c).due = false := by
  unfold MeasSlot.takeSample MeasSlot.latch
  dsimp only
  split
  · split
    · rfl
    · exact h
  · exact h
  · exact h

/-- With no other slot due the converter stays IDLE after a conversion. -/
theorem idle_after {y : MeasSlot} (h : ∀ n, (s.slot n).due = false) (hy : y.due = false) (n : Fin 6) :
    ((s.setSlot m y).slot n).due = false := by
  rw [slot_setSlot]
  split
  · exact hy
  · exact h n

/-! ### A latch and the running step (R36, R126) -/

theorem reportMeas_open {r : Running} {i : Fin 2} {z : MeasReport} (h : r.measReports[i.val]? = some none) :
    r.reportMeas i z = { r with measReports := r.measReports.set i.val (some z) } := by
  simp only [Running.reportMeas, h]

/-- A step with a part still open is not complete. -/
theorem not_complete {r : Running} (h : (r.step.expectation ≠ none ∧ r.expectReport = none) ∨
    (r.step.prompt ≠ none ∧ r.promptReport = none) ∨ (∃ j : Nat, r.measReports[j]? = some none)) : r.complete = false := by
  have hmem : none ∈ r.verdicts := by
    unfold Running.verdicts
    rcases h with ⟨he, hr⟩ | ⟨hp, hr⟩ | ⟨j, hj⟩
    · simp [Option.isSome_iff_ne_none, he, hr]
    · simp [Option.isSome_iff_ne_none, hp, hr]
    · have := List.mem_of_getElem? hj
      simp only [List.mem_append, List.mem_map]
      exact Or.inl (Or.inl ⟨none, this, rfl⟩)
  rw [← Bool.not_eq_true, Running.complete, List.all_eq_true]
  exact fun hall => by simpa using hall none hmem

theorem deliverMeas_open {k : Fin 4} {i : Fin 2} {r : Running} {z : MeasReport} (hr : (s.seat k).running = some r)
    (hi : r.measReports[i.val]? = some none)
    (hopen : (r.step.expectation ≠ none ∧ r.expectReport = none) ∨ (r.step.prompt ≠ none ∧ r.promptReport = none) ∨
      (∃ j : Nat, j ≠ i.val ∧ r.measReports[j]? = some none)) :
    s.deliverMeas k i z = s.setRunning k (some { r with measReports := r.measReports.set i.val (some z) }) := by
  have hc : Running.complete { r with measReports := r.measReports.set i.val (some z) } = false := by
    refine not_complete ?_
    rcases hopen with h | h | ⟨j, hj, hn⟩
    · exact Or.inl h
    · exact Or.inr (Or.inl h)
    · exact Or.inr (Or.inr ⟨j, by simpa [List.getElem?_set, Ne.symm hj] using hn⟩)
  simp only [State.deliverMeas, hr, reportMeas_open hi, State.afterReport, hc]
  rfl

/-- The last open part is a measurement alone: the step ends with its verdict, and the seat returns to POWERED. -/
theorem deliverMeas_last {k : Fin 4} {r : Running} {z : MeasReport} (hr : (s.seat k).running = some r)
    (hm : r.measReports = [none]) (he : r.step.expectation = none) (her : r.expectReport = none)
    (hp : r.step.prompt = none) (hpr : r.promptReport = none) (hz : z.verdict.rank < 2) (hq : (s.seat k).queue = []) :
    ((s.deliverMeas k 0 z).record k).state = .powered ∧ ((s.deliverMeas k 0 z).seat k).running = none ∧
    ∃ e, ((s.deliverMeas k 0 z).seat k).results = (s.seat k).results.append e ∧ e.stepId = r.step.id ∧
      e.outcome = z.verdict ∧ e.deciding = .measurement0 ∧ e.cause = none ∧
      e.measurements = [{ value := z.value, samples := z.samples }] := by
  obtain ⟨r', hr'⟩ : ∃ r' : Running, r' = { r with measReports := [some z] } := ⟨_, rfl⟩
  have hreport : r.reportMeas 0 z = r' := by
    rw [reportMeas_open (by simp [hm]), hr', hm]
    rfl
  have hcomplete : r'.complete = true := by simp [hr', Running.complete, Running.verdicts, he, hp]
  have hjudged : r'.judged = [(.measurement0, z.verdict)] := by
    simp [hr', Running.judged, measParts, her, hpr]
  have hjudge : judgeStep r'.judged = (.measurement0, z.verdict) := by rw [hjudged]; rfl
  have hdeliver : s.deliverMeas k 0 z = (s.setRunning k (some r')).finishStep k r' := by
    simp only [State.deliverMeas, hr, State.afterReport, hreport, hcomplete, if_true]
  obtain ⟨trec, trun, tres⟩ := finishStep_powered (s := s.setRunning k (some r')) (k := k) (r := r')
    (by rw [hjudge]; exact fun h => absurd h.1 (not_le.mpr hz)) (by simpa using hq)
  rw [hdeliver]
  refine ⟨by rw [trec]; rfl, trun, _, by simpa using tres, ?_, ?_, ?_, rfl, ?_⟩
  · simp [State.endEntry, hr']
  · simp [State.endEntry, hjudge]
  · simp [State.endEntry, hjudge]
  · simp [State.endEntry, Running.resultMeas, hr']

/-- Settles O48. -/
theorem converterEvents : Obligations.ConverterEvents := by
  refine ⟨fun s m => ⟨fun hg hc => ?_, fun hd hc => ?_, fun k i x l hc hdue hk hi hx hl => ⟨fun hg => ?_, fun t0 hd ht => ?_⟩⟩,
    fun v n => ⟨rawCode_below, rawCode_between, rawCode_above⟩,
    fun s m b input done raw hc hd => ⟨fun hdue => ⟨fun hn => ?_, fun k i x l y hst hb hk hi hx hl hy => ?_⟩,
      fun n k i x l hnot hn hfirst hk hi hx hl => ?_⟩⟩
  · rw [exec_gateTimeReached hg, converterArbiter_busy (by simpa [openedSlot] using hc)]
    rfl
  · rw [exec_slotDue hd, converterArbiter_busy (by simpa using hc)]
  · rw [exec_gateTimeReached hg]
    exact congrArg Host.Outcome.next (converterArbiter_due hc hdue rfl hk hi hx hl rfl)
  · rw [exec_slotDue hd]
    exact congrArg Host.Outcome.next (converterArbiter_due (m := m) hc hdue rfl hk hi hx hl ht)
  · rw [exec_conversionComplete hc hd, not_samplesUnder hn, if_neg Bool.false_ne_true]
    exact congrArg Host.Outcome.next (converterArbiter_none (s := { s with converter := .idle }) hdue)
  · have hunder : (s.slot m).samplesUnder b = true := by simp [MeasSlot.samplesUnder, hst, hb]
    have hydue : y.due = false := by rw [hy]; exact takeSample_due _ l _ (hdue m)
    have hidle := idle_after (m := m) hdue hydue
    rw [exec_conversionComplete hc hd, hunder, if_pos rfl, passSample_eq input raw hk hi hx hl hy]
    refine ⟨fun hn => ?_, fun r z hlatched hr hz hri => ?_⟩
    · rw [if_neg hn]
      exact congrArg Host.Outcome.next (converterArbiter_none (s := { s.setSlot m y with converter := .idle }) hidle)
    · have hreport : y.latchReport = z := by rw [hz]; rfl
      rw [if_pos hlatched, hreport]
      refine ⟨fun hopen => ?_, fun hst' he her hp hpr hm h0 hq => ?_⟩
      · rw [deliverMeas_open (by simpa using hr) hri hopen]
        exact congrArg Host.Outcome.next (converterArbiter_none (s := { State.setRunning _ k _ with converter := .idle })
          hidle)
      · subst h0
        have hrank : z.verdict.rank < 2 := by
          rw [hz]
          cases y.runMarginal <;> simp [StepOutcome.rank]
        obtain ⟨hrec, hrun, e, hres, hid, hout, hdec, hcause, hmeas⟩ := deliverMeas_last (s := s.setSlot m y) (z := z)
          (by simpa using hr) hm he her hp hpr hrank (by simpa using hq)
        obtain ⟨arec, -, arun, ares, -, -⟩ := untouched (works_converterArbiter
          (s := { (s.setSlot m y).deliverMeas k 0 z with converter := .idle })) k
        refine ⟨_, e, rfl, ?_, ?_, ?_, hid, hout, hdec, hcause, by rw [hmeas, hz]⟩
        · rw [arec]; exact hrec
        · rw [arun]; exact hrun
        · rw [ares]; exact hres.trans (by simp)
  · rw [exec_conversionComplete hc hd, not_samplesUnder hnot, if_neg Bool.false_ne_true]
    exact congrArg Host.Outcome.next
      (converterArbiter_starts (s := { s with converter := .idle }) rfl (nextSlot_first hn hfirst) hk hi hx hl)

end Steps
end Machine
end Sys2Proof
end

section
/-! The start of a step: what its binds, its expectation and its prompt make of the state (R32 to R35, R68, R110). -/

namespace Sys2Proof
namespace Machine
namespace Steps

variable {s t : State} {k : Fin 4}

/-! ### Free channels and free slots (R29) -/

theorem freeChannelCount_mono (h : ∀ c, (s.channel c).state = .free → (t.channel c).state = .free) :
    s.freeChannelCount ≤ t.freeChannelCount := by
  simp only [State.freeChannelCount, ← List.countP_eq_length_filter]
  exact List.countP_mono_left fun c _ hc => by simpa using h c (by simpa using hc)

theorem freeChannelCount_one {c : Fin 8} (hc : (s.channel c).state = .free) (hn : (t.channel c).state ≠ .free)
    (ho : ∀ d, d ≠ c → t.channel d = s.channel d) : s.freeChannelCount = t.freeChannelCount + 1 := by
  simp only [State.freeChannelCount, ← List.countP_eq_length_filter]
  exact countP_one_more ids8_nodup (mem_ids8 c) (fun d hd => by rw [ho d hd]) (by simpa using hn) (by simpa using hc)

theorem freeChannel?_some (h : 0 < s.freeChannelCount) : ∃ c, s.freeChannel? = some c := by
  simp only [State.freeChannelCount, List.length_pos_iff_exists_mem, List.mem_filter] at h
  obtain ⟨c, hc, hf⟩ := h
  exact Option.isSome_iff_exists.mp (List.find?_isSome.mpr ⟨c, hc, hf⟩)

theorem freeSlotCount_mono (h : ∀ m, (s.slot m).state = .free → (t.slot m).state = .free) :
    s.freeSlotCount ≤ t.freeSlotCount := by
  simp only [State.freeSlotCount, ← List.countP_eq_length_filter]
  exact List.countP_mono_left fun m _ hm => by simpa using h m (by simpa using hm)

theorem freeSlotCount_one {m : Fin 6} (hm : (s.slot m).state = .free) (hn : (t.slot m).state ≠ .free)
    (ho : ∀ n, n ≠ m → (t.slot n).state = (s.slot n).state) : s.freeSlotCount = t.freeSlotCount + 1 := by
  simp only [State.freeSlotCount, ← List.countP_eq_length_filter]
  exact countP_one_more slotIds_nodup (mem_slotIds m) (fun n hd => by rw [ho n hd]) (by simpa using hn) (by simpa using hm)

theorem freeSlot?_some (h : 0 < s.freeSlotCount) : ∃ m, s.freeSlot? = some m := by
  simp only [State.freeSlotCount, List.length_pos_iff_exists_mem, List.mem_filter] at h
  obtain ⟨m, hm, hf⟩ := h
  exact Option.isSome_iff_exists.mp (List.find?_isSome.mpr ⟨m, hm, hf⟩)

/-! ### Channel entries (R34, R68) -/

theorem editRunning_eq {r : Running} (f : Running → Running) (hr : (s.seat k).running = some r) :
    s.editRunning k f = s.setRunning k (some (f r)) := by
  simp only [State.editRunning, hr]

/-- The binds of channel entries `xs` from `s` to `t`, to the channels `cs`. -/
structure EntriesBound (k : Fin 4) (s t : State) (r : Running) (xs : List (Fin 3 × ChannelEntry)) (cs : List (Fin 8)) :
    Prop where
  seat : t.seat k = { s.seat k with running := some { r with channels := r.channels ++ cs } }
  slot : ∀ m, t.slot m = s.slot m
  now : t.now = s.now
  length : cs.length = xs.length
  free : ∀ c ∈ cs, (s.channel c).state = .free
  rest : ∀ d, d ∉ cs → t.channel d = s.channel d
  bound : ∀ (i : Nat) (x : Fin 3 × ChannelEntry) (p : Program), xs[i]? = some x →
    (s.program x.2.program).program = some p → ∃ c, cs[i]? = some c ∧ t.channel c = Channel.bound k x.1 x.2 p s.now

theorem bindEntry_bound {x : Fin 3 × ChannelEntry} {r : Running} {p : Program} {c : Fin 8}
    (hr : (s.seat k).running = some r) (hp : (s.program x.2.program).program = some p) (hc : s.freeChannel? = some c) :
    EntriesBound k s (bindEntry k s x) r [x] [c] ∧
      (∀ i, ((bindEntry k s x).program i).program = (s.program i).program) := by
  have hbind : bindEntry k s x = ((s.setChannel c (Channel.bound k x.1 x.2 p s.now)).useProgram x.2.program).setRunning k
      (some { r with channels := r.channels ++ [c] }) := by
    simp only [bindEntry, hc, State.bindChannel, hp]
    exact editRunning_eq _ (by simpa [State.useProgram] using hr)
  have w := works_bindEntry (T := fun _ => True) (s := s) k x trivial
  refine ⟨⟨?_, ?_, ?_, rfl, ?_, ?_, ?_⟩, w.programs⟩
  · rw [hbind]; simp [State.useProgram]
  · rw [hbind]; simp [State.useProgram]
  · exact works_now w
  · simpa using freeChannel?_free hc
  · intro d hd
    rw [hbind]
    simpa [State.useProgram, channel_setChannel] using fun e => absurd e (by simpa using hd)
  · intro i y q hy hq
    match i with
    | 0 =>
      obtain rfl : x = y := by simpa using hy
      obtain rfl : p = q := by simpa [hp] using hq
      exact ⟨c, rfl, by rw [hbind]; simp [State.useProgram]⟩
    | i + 1 => simp at hy

/-- Every entry finds a free channel while there are as many, and no later bind reaches it. -/
theorem foldl_bindEntry (xs : List (Fin 3 × ChannelEntry)) {r : Running} (hr : (s.seat k).running = some r)
    (hfree : xs.length ≤ s.freeChannelCount) (hp : ∀ x ∈ xs, (s.program x.2.program).program ≠ none) :
    ∃ cs, EntriesBound k s (xs.foldl (bindEntry k) s) r xs cs := by
  induction xs generalizing s r with
  | nil =>
    refine ⟨[], ⟨?_, fun _ => rfl, rfl, rfl, by simp, fun _ _ => rfl, by simp⟩⟩
    simp [← hr]
  | cons x xs ih =>
    obtain ⟨c, hc⟩ := freeChannel?_some (s := s) (by simp only [List.length_cons] at hfree; omega)
    obtain ⟨p, hxp⟩ := Option.ne_none_iff_exists'.mp (hp x List.mem_cons_self)
    obtain ⟨hone, hprog⟩ := bindEntry_bound hr hxp hc
    obtain ⟨c', hc', hbound⟩ := hone.bound 0 x p rfl hxp
    obtain rfl : c = c' := by simpa using hc'
    have hnow := hone.now
    have hcount : s.freeChannelCount = (bindEntry k s x).freeChannelCount + 1 :=
      freeChannelCount_one (freeChannel?_free hc) (by rw [hbound]; exact fun h => nomatch h)
        fun d hd => hone.rest d (by simpa using hd)
    obtain ⟨cs, hcs⟩ := ih (s := bindEntry k s x) (r := { r with channels := r.channels ++ [c] })
      (by rw [hone.seat]) (by simp only [List.length_cons] at hfree; omega)
      fun y hy => by rw [hprog]; exact hp y (List.mem_cons_of_mem _ hy)
    have hcn : c ∉ cs := fun h => by
      have := hcs.free c h
      rw [hbound] at this
      exact nomatch this
    refine ⟨c :: cs, ⟨?_, fun m => (hcs.slot m).trans (hone.slot m), hcs.now.trans hnow, by simp [hcs.length], ?_, ?_, ?_⟩⟩
    · rw [List.foldl_cons, hcs.seat, hone.seat]
      simp
    · intro d hd
      rcases List.mem_cons.mp hd with rfl | hd
      · exact freeChannel?_free hc
      · have hdc : d ≠ c := fun e => hcn (e ▸ hd)
        rw [← hone.rest d (by simpa using hdc)]
        exact hcs.free d hd
    · intro d hd
      obtain ⟨hdc, hdcs⟩ : d ≠ c ∧ d ∉ cs := by simpa using hd
      exact (hcs.rest d hdcs).trans (hone.rest d (by simpa using hdc))
    · intro i y q hy hq
      cases i with
      | zero =>
        obtain rfl : x = y := by simpa using hy
        obtain rfl : p = q := by simpa [hxp] using hq
        exact ⟨c, rfl, (hcs.rest c hcn).trans hbound⟩
      | succ i =>
        obtain ⟨d, hd, hch⟩ := hcs.bound i y q (by simpa using hy) (by rw [hprog]; exact hq)
        exact ⟨d, by simpa using hd, by rw [List.foldl_cons, hch, hnow]⟩

/-! ### Measurements (R35, R110) -/

/-- A slot record whose due time alone has moved. -/
def Retimed (x y : MeasSlot) : Prop := ∃ n d, y = { x with nextDue := n, due := d }

theorem Retimed.refl (x : MeasSlot) : Retimed x x := ⟨x.nextDue, x.due, rfl⟩

theorem Retimed.trans {x y z : MeasSlot} (h : Retimed x y) (g : Retimed y z) : Retimed x z := by
  obtain ⟨n, d, rfl⟩ := h
  obtain ⟨n', d', rfl⟩ := g
  exact ⟨n', d', rfl⟩

theorem Retimed.state {x y : MeasSlot} (h : Retimed x y) : y.state = x.state := by
  obtain ⟨n, d, rfl⟩ := h
  rfl

/-- The arbiter reaches no seat and no channel, and of a slot its due time alone. -/
theorem converterArbiter_keeps : (∀ j, s.converterArbiter.seat j = s.seat j) ∧
    (∀ c, s.converterArbiter.channel c = s.channel c) ∧ ∀ m, Retimed (s.slot m) (s.converterArbiter.slot m) := by
  have hstart : ∀ m n, Retimed (s.slot n) ((s.startConversion m).slot n) ∧ (∀ j, (s.startConversion m).seat j = s.seat j) ∧
      ∀ c, (s.startConversion m).channel c = s.channel c := by
    intro m n
    unfold State.startConversion
    dsimp only
    split
    · refine ⟨?_, fun _ => rfl, fun _ => rfl⟩
      change Retimed _ (State.slot (s.setSlot m _) n)
      rw [slot_setSlot]
      split
      · next h => exact h ▸ ⟨_, _, rfl⟩
      · exact Retimed.refl _
    · exact ⟨Retimed.refl _, fun _ => rfl, fun _ => rfl⟩
  unfold State.converterArbiter
  split
  · exact ⟨fun _ => rfl, fun _ => rfl, fun _ => Retimed.refl _⟩
  · split
    · exact ⟨fun _ => rfl, fun _ => rfl, fun _ => Retimed.refl _⟩
    · next m _ => exact ⟨(hstart m 0).2.1, (hstart m 0).2.2, fun n => (hstart m n).1⟩

theorem openGate_keeps (m : Fin 6) : (∀ j, (s.openGate m).seat j = s.seat j) ∧
    (∀ c, (s.openGate m).channel c = s.channel c) ∧ ∀ n, n ≠ m → Retimed (s.slot n) ((s.openGate m).slot n) := by
  unfold State.openGate
  dsimp only
  split
  · obtain ⟨hseat, hchannel, hslot⟩ := converterArbiter_keeps
      (s := s.setSlot m { s.slot m with state := .sampling, gateTime := none, nextDue := some s.now, due := true })
    refine ⟨fun j => (hseat j).trans (by simp), fun c => (hchannel c).trans (by simp), fun n hn => ?_⟩
    have := hslot n
    rwa [slot_setSlot_other _ _ _ _ hn] at this
  · exact ⟨fun _ => rfl, fun _ => rfl, fun _ _ => Retimed.refl _⟩

/-- A slot just bound, its gate open when it opens with the bind (R110). -/
def boundSlot (k : Fin 4) (x : Fin 2 × Measurement) (start : RackTime) (window b : Nat) : MeasSlot :=
  if x.2.gate.opensAtBind then { MeasSlot.bound k x.1 x.2 start window b with state := .sampling, gateTime := none }
  else MeasSlot.bound k x.1 x.2 start window b

theorem bindSlot_keeps (m : Fin 6) (k : Fin 4) (x : Fin 2 × Measurement) (start : RackTime) (window : Nat) :
    (∀ j, (s.bindSlot m k x.1 x.2 start window).seat j = s.seat j) ∧
    (∀ c, (s.bindSlot m k x.1 x.2 start window).channel c = s.channel c) ∧
    (∀ n, n ≠ m → Retimed (s.slot n) ((s.bindSlot m k x.1 x.2 start window).slot n)) ∧
    ∃ b, Retimed (boundSlot k x start window b) ((s.bindSlot m k x.1 x.2 start window).slot m) := by
  obtain ⟨u, hu⟩ : ∃ u : State, u = { (s.setSlot m (MeasSlot.bound k x.1 x.2 start window s.bindings)).useLimit x.2.limit with
    bindings := s.bindings + 1 } := ⟨_, rfl⟩
  have hseat : ∀ j, u.seat j = s.seat j := by intro j; rw [hu]; rfl
  have hchannel : ∀ c, u.channel c = s.channel c := by intro c; rw [hu]; rfl
  have hother : ∀ n, n ≠ m → u.slot n = s.slot n := by
    intro n hn
    rw [hu]
    exact slot_setSlot_other _ _ _ _ hn
  have hm : u.slot m = MeasSlot.bound k x.1 x.2 start window s.bindings := by
    rw [hu]
    exact slot_setSlot_same _ _ _
  have hbind : s.bindSlot m k x.1 x.2 start window = if x.2.gate.opensAtBind then u.openGate m else u := by
    rw [hu]; rfl
  rw [hbind]
  unfold boundSlot
  split
  · obtain ⟨gseat, gchannel, gslot⟩ := openGate_keeps (s := u) m
    refine ⟨fun j => (gseat j).trans (hseat j), fun c => (gchannel c).trans (hchannel c),
      fun n hn => hother n hn ▸ gslot n hn, s.bindings, ?_⟩
    have hgated : (u.slot m).state = .gated := by rw [hm]; rfl
    have hslot := (converterArbiter_keeps (s := openedSlot u m)).2.2 m
    have hopen : u.openGate m = (openedSlot u m).converterArbiter := by
      simp only [State.openGate, hgated, if_true]
      rfl
    rw [hopen]
    refine Retimed.trans ⟨some u.now, true, ?_⟩ hslot
    rw [openedSlot, slot_setSlot_same, hm]
  · exact ⟨hseat, hchannel, fun n hn => hother n hn ▸ Retimed.refl _, s.bindings, hm ▸ Retimed.refl _⟩

/-- The binds of measurements `xs` from `s` to `t`, to the slots `ms`. -/
structure MeasBound (k : Fin 4) (window : Nat) (s t : State) (r : Running) (xs : List (Fin 2 × Measurement))
    (ms : List (Fin 6)) : Prop where
  seat : t.seat k = { s.seat k with running := some { r with slots := r.slots ++ ms } }
  channel : ∀ c, t.channel c = s.channel c
  now : t.now = s.now
  free : ∀ m ∈ ms, (s.slot m).state = .free
  rest : ∀ n, n ∉ ms → Retimed (s.slot n) (t.slot n)
  bound : ∀ (i : Nat) (x : Fin 2 × Measurement), xs[i]? = some x →
    ∃ m b, ms[i]? = some m ∧ Retimed (boundSlot k x s.now window b) (t.slot m)

theorem boundSlot_not_free (k : Fin 4) (x : Fin 2 × Measurement) (start : RackTime) (window b : Nat) :
    (boundSlot k x start window b).state ≠ .free := by
  unfold boundSlot
  split <;> exact fun h => nomatch h

theorem bindMeasurement_bound {x : Fin 2 × Measurement} {r : Running} {m : Fin 6} (window : Nat)
    (hr : (s.seat k).running = some r) (hm : s.freeSlot? = some m) :
    MeasBound k window s (bindMeasurement k window s x) r [x] [m] := by
  have hbind : bindMeasurement k window s x =
      (s.setRunning k (some { r with slots := r.slots ++ [m] })).bindSlot m k x.1 x.2 s.now window := by
    simp only [bindMeasurement, hm, editRunning_eq _ hr]
  obtain ⟨hseat, hchannel, hslot, b, hb⟩ :=
    bindSlot_keeps (s := s.setRunning k (some { r with slots := r.slots ++ [m] })) m k x s.now window
  have w := works_bindMeasurement (T := fun _ => True) (s := s) k window x trivial
  refine ⟨?_, ?_, works_now w, by simpa using freeSlot?_free hm, ?_, ?_⟩
  · rw [hbind, hseat]; simp
  · intro c; rw [hbind, hchannel]; simp
  · intro n hn
    rw [hbind]
    simpa using hslot n (by simpa using hn)
  · intro i y hy
    match i with
    | 0 =>
      obtain rfl : x = y := by simpa using hy
      exact ⟨m, b, rfl, by rw [hbind]; exact hb⟩
    | i + 1 => simp at hy

/-- Every measurement finds a free slot while there are as many, and no later bind reaches it but for its due time. -/
theorem foldl_bindMeasurement (window : Nat) (xs : List (Fin 2 × Measurement)) {r : Running}
    (hr : (s.seat k).running = some r) (hfree : xs.length ≤ s.freeSlotCount) :
    ∃ ms, MeasBound k window s (xs.foldl (bindMeasurement k window) s) r xs ms := by
  induction xs generalizing s r with
  | nil =>
    refine ⟨[], ⟨?_, fun _ => rfl, rfl, by simp, fun _ _ => Retimed.refl _, by simp⟩⟩
    simp [← hr]
  | cons x xs ih =>
    obtain ⟨m, hm⟩ := freeSlot?_some (s := s) (by simp only [List.length_cons] at hfree; omega)
    have hone := bindMeasurement_bound (x := x) window hr hm
    obtain ⟨m', b, hm', hbound⟩ := hone.bound 0 x rfl
    obtain rfl : m = m' := by simpa using hm'
    have hbusy : ((bindMeasurement k window s x).slot m).state ≠ .free := by
      rw [hbound.state]
      exact boundSlot_not_free _ _ _ _ _
    have hcount : s.freeSlotCount = (bindMeasurement k window s x).freeSlotCount + 1 :=
      freeSlotCount_one (freeSlot?_free hm) hbusy fun n hn => (hone.rest n (by simpa using hn)).state
    obtain ⟨ms, hms⟩ := ih (s := bindMeasurement k window s x) (r := { r with slots := r.slots ++ [m] })
      (by rw [hone.seat]) (by simp only [List.length_cons] at hfree; omega)
    have hmn : m ∉ ms := fun h => hbusy (hms.free m h)
    refine ⟨m :: ms, ⟨?_, fun c => (hms.channel c).trans (hone.channel c), hms.now.trans hone.now, ?_, ?_, ?_⟩⟩
    · rw [List.foldl_cons, hms.seat, hone.seat]
      simp
    · intro n hn
      rcases List.mem_cons.mp hn with rfl | hn
      · exact freeSlot?_free hm
      · have hnm : n ≠ m := fun e => hmn (e ▸ hn)
        rw [← (hone.rest n (by simpa using hnm)).state]
        exact hms.free n hn
    · intro n hn
      obtain ⟨hnm, hnms⟩ : n ≠ m ∧ n ∉ ms := by simpa using hn
      exact (hone.rest n (by simpa using hnm)).trans (hms.rest n hnms)
    · intro i y hy
      cases i with
      | zero =>
        obtain rfl : x = y := by simpa using hy
        exact ⟨m, b, rfl, hbound.trans (hms.rest m hmn)⟩
      | succ i =>
        obtain ⟨n, b', hn, hslot⟩ := hms.bound i y (by simpa using hy)
        exact ⟨n, b', by simpa using hn, hone.now ▸ hslot⟩

end Steps
end Machine
end Sys2Proof
end

section
/-! The whole start of a step whose references are written and whose bitmap is granted (R32 to R35). -/

namespace Sys2Proof
namespace Machine
namespace Steps

variable {s t : State} {k : Fin 4}

/-! ### The kept channel a step replaces (R29, R34) -/

theorem replacesKept_bound {st : Step} {c : Fin 8} (h : s.replacesKept k st = some c) :
    (s.channel c).state ≠ .free ∧ ∃ e ∈ st.entries, (s.channel c).target = some e.target := by
  unfold State.replacesKept at h
  split at h
  · exact nomatch h
  · next d hd =>
    split at h
    · next hany =>
      obtain rfl : d = c := by simpa using h
      have hk := List.find?_some hd
      simp only [Channel.onSeat, Bool.and_eq_true, bne_iff_ne, ne_eq] at hk
      obtain ⟨e, he, ht⟩ := List.any_eq_true.mp hany
      exact ⟨hk.1.1, e, he, by simpa using ht⟩
    · exact nomatch h

theorem freeReplaced_channel (st : Step) (d : Fin 8) : (s.freeReplaced k st).channel d =
    if s.replacesKept k st = some d then Channel.free else s.channel d := by
  unfold State.freeReplaced
  split
  · next h => simp [h]
  · next c h => simp [freeChannel_channel, h, eq_comm]

/-- The need counts a replaced kept channel as free already (R29), and after it is freed there are enough. -/
theorem freeReplaced_count {st : Step} (h : (s.need k st).1 ≤ s.freeChannelCount) :
    st.entries.length ≤ (s.freeReplaced k st).freeChannelCount := by
  cases hr : s.replacesKept k st with
  | none =>
    have hsame : s.freeReplaced k st = s := by simp only [State.freeReplaced, hr]
    simpa [State.need, hr, hsame] using h
  | some c =>
    have hone : (s.freeReplaced k st).freeChannelCount = s.freeChannelCount + 1 := by
      refine freeChannelCount_one (c := c) ?_ (replacesKept_bound hr).1 fun d hd => ?_
      · rw [freeReplaced_channel, if_pos hr]; rfl
      · rw [freeReplaced_channel, if_neg (by simpa [hr] using Ne.symm hd)]
    simp only [State.need, hr, Option.isSome_some, if_true] at h
    omega

theorem works_freeReplaced_untouched (st : Step) : Works (fun _ => False) s (s.freeReplaced k st) :=
  works_freeReplaced k st

theorem freeReplaced_outputs (st : Step) :
    ((s.freeReplaced k st).seat k).outputs.restAll = (s.seat k).outputs.restAll ∧
    ((s.seat k).outputs = (s.seat k).outputs.restAll → ((s.freeReplaced k st).seat k).outputs = (s.seat k).outputs) := by
  unfold State.freeReplaced
  split
  · exact ⟨rfl, fun _ => rfl⟩
  · next c _ =>
    obtain ⟨o, ho, hrest, hstays⟩ := freeChannel_outputs (s := s) c k
    rw [ho]
    exact ⟨hrest, hstays⟩

@[simp] theorem freeReplaced_slot (st : Step) (m : Fin 6) : (s.freeReplaced k st).slot m = s.slot m := by
  unfold State.freeReplaced
  split <;> simp

/-! ### Everything a start binds and opens (R34, R35) -/

/-- What the start of step `st` makes of seat `k`: the channels `cs` and the slots `ms` are bound for it, its expectation
is watched, its prompt is open, and the rest of the sequencer's state is as before. -/
structure StepBound (k : Fin 4) (st : Step) (s t : State) (cs : List (Fin 8)) (ms : List (Fin 6)) : Prop where
  running : (t.seat k).running = some { Running.fresh st s.now with channels := cs, slots := ms }
  record : t.record k = s.record k
  results : (t.seat k).results = (s.seat k).results
  outputs : (t.seat k).outputs.restAll = (s.seat k).outputs.restAll
  atRest : (s.seat k).outputs = (s.seat k).outputs.restAll → (t.seat k).outputs = (s.seat k).outputs
  waitList : t.waitList = s.waitList
  watched : ∀ e, st.expectation = some e → t.capture k = (s.capture k).watch e
  opened : ∀ pr, st.prompt = some pr →
    t.prompt k = { isOpen := true, expected := some pr.expected, width := some pr.width }
  length : cs.length = min 3 st.entries.length
  free : ∀ c ∈ cs, ((s.freeReplaced k st).channel c).state = .free
  rest : ∀ d, d ∉ cs → t.channel d = (s.freeReplaced k st).channel d
  entry : ∀ (i : Fin 3) (x : ChannelEntry) (p : Program), st.entries[i.val]? = some x →
    (s.program x.program).program = some p → ∃ c, cs[i.val]? = some c ∧ t.channel c = Channel.bound k i x p s.now
  measurement : ∀ (i : Fin 2) (x : Measurement), st.measurements[i.val]? = some x →
    ∃ m b, ms[i.val]? = some m ∧ Retimed (boundSlot k (i, x) s.now st.window b) (t.slot m)

theorem entryIds_at (i : Fin 3) : entryIds[i.val]? = some i := by
  revert i
  decide

theorem measIds_at (i : Fin 2) : measIds[i.val]? = some i := by
  revert i
  decide

theorem zip_entryIds {xs : List ChannelEntry} {i : Fin 3} {x : ChannelEntry} (h : xs[i.val]? = some x) :
    (entryIds.zip xs)[i.val]? = some (i, x) := by
  rw [List.getElem?_zip_eq_some]
  exact ⟨entryIds_at i, h⟩

theorem zip_measIds {xs : List Measurement} {i : Fin 2} {x : Measurement} (h : xs[i.val]? = some x) :
    (measIds.zip xs)[i.val]? = some (i, x) := by
  rw [List.getElem?_zip_eq_some]
  exact ⟨measIds_at i, h⟩

/-- The expectation and the prompt of a step reach the capture unit and the panel alone (R35, stages 2 and 3). -/
theorem opened_keeps (st : Step) : let t := (s.startExpectation k st).startPrompt k st
    (t.seat k).record = (s.seat k).record ∧ (t.seat k).queue = (s.seat k).queue ∧
    (t.seat k).running = (s.seat k).running ∧ (t.seat k).outputs = (s.seat k).outputs ∧
    (t.seat k).results = (s.seat k).results ∧ (∀ c, t.channel c = s.channel c) ∧ (∀ m, t.slot m = s.slot m) ∧
    (∀ e, st.expectation = some e → t.capture k = (s.capture k).watch e) ∧
    (∀ pr, st.prompt = some pr → t.prompt k = { isOpen := true, expected := some pr.expected, width := some pr.width }) := by
  have hprompt : ∀ u : State, (∀ j, (u.startPrompt k st).seat j = u.seat j) ∧
      (∀ c, (u.startPrompt k st).channel c = u.channel c) ∧ (∀ m, (u.startPrompt k st).slot m = u.slot m) ∧
      ∀ pr, st.prompt = some pr →
        (u.startPrompt k st).prompt k = { isOpen := true, expected := some pr.expected, width := some pr.width } := by
    intro u
    unfold State.startPrompt
    split
    · next hnone => simp [hnone]
    · next pr hsome =>
      refine ⟨by simp, by simp, by simp, fun pr' hpr => ?_⟩
      obtain rfl : pr = pr' := by simpa [hsome] using hpr
      exact openPrompt_prompt k pr
  obtain ⟨hseat, hchannel, hslot, hopen⟩ := hprompt (s.startExpectation k st)
  dsimp only
  simp only [hseat, hchannel, hslot, State.capture]
  unfold State.startExpectation at *
  split
  · next hnone => simp_all
  · next e hsome =>
    rw [hsome] at hopen
    refine ⟨by simp, by simp, by simp, by simp, by simp, by simp, by simp, fun e' he => ?_, hopen⟩
    obtain rfl : e = e' := by simpa [hsome] using he
    simp

/-- A step whose references are written and whose need is covered binds everything it names (R29, R34, R35). -/
theorem bindStep_bound {st : Step} (hr : (s.seat k).running = some (Running.fresh st s.now))
    (href : s.referencesOk st = true) (hc : (s.need k st).1 ≤ s.freeChannelCount)
    (hm : st.measurements.length ≤ s.freeSlotCount) :
    (∃ cs ms, StepBound k st s (s.bindStep k st) cs ms) ∧ ((s.bindStep k st).seat k).queue = (s.seat k).queue := by
  have hrefs : ∀ e ∈ st.entries, (s.program e.program).program ≠ none := by
    simp only [State.referencesOk, Bool.and_eq_true, List.all_eq_true] at href
    exact fun e he => Option.isSome_iff_ne_none.mp (href.1 e he)
  -- the kept channel that is replaced
  have wr := works_freeReplaced_untouched (s := s) (k := k) st
  obtain ⟨rrec, rqueue, rrun, rres, rcap, -⟩ := untouched wr k
  obtain ⟨rout, rrest⟩ := freeReplaced_outputs (s := s) (k := k) st
  have rnow := works_now wr
  -- the channel entries
  obtain ⟨cs, hcs⟩ := foldl_bindEntry (s := s.freeReplaced k st) (k := k) (entryIds.zip st.entries)
    (rrun.trans hr) (by have := freeReplaced_count hc; simp only [List.length_zip]; omega)
    fun x hx => by rw [wr.programs]; exact hrefs x.2 (List.of_mem_zip hx).2
  -- the measurements
  obtain ⟨ms, hms⟩ := foldl_bindMeasurement (s := (s.freeReplaced k st).bindEntries k st) (k := k) st.window
    (measIds.zip st.measurements) (r := { Running.fresh st s.now with channels := cs })
    (by rw [State.bindEntries, hcs.seat]; rfl)
    (by
      have hcount : s.freeSlotCount ≤ ((s.freeReplaced k st).bindEntries k st).freeSlotCount :=
        freeSlotCount_mono fun m hfree => by rw [State.bindEntries, hcs.slot]; simpa using hfree
      simp only [List.length_zip]; omega)
  obtain ⟨orec, oqueue, orun, oout, ores, ochannel, oslot, owatch, oopen⟩ :=
    opened_keeps (s := ((s.freeReplaced k st).bindEntries k st).bindMeasurements k st) (k := k) st
  have hseat : (((s.freeReplaced k st).bindEntries k st).bindMeasurements k st).seat k =
      { (s.freeReplaced k st).seat k with running := some { Running.fresh st s.now with channels := cs, slots := ms } } := by
    rw [State.bindMeasurements, hms.seat, State.bindEntries, hcs.seat]
    rfl
  have hnow : ((s.freeReplaced k st).bindEntries k st).now = s.now := hcs.now.trans rnow
  simp only [State.record] at rrec
  refine ⟨⟨cs, ms, ⟨?_, ?_, ?_, ?_, ?_, ?_, ?_, oopen, ?_, hcs.free, ?_, ?_, ?_⟩⟩, ?_⟩
  · rw [State.bindStep, orun, hseat]
  · rw [State.record, State.bindStep, orec, hseat]; exact rrec
  · rw [State.bindStep, ores, hseat]; exact rres
  · rw [State.bindStep, oout, hseat]; exact rout
  · rw [State.bindStep, oout, hseat]; exact rrest
  · simp
  · intro e he
    rw [State.bindStep, owatch e he, State.capture, hseat]
    exact congrArg (fun c : Capture => c.watch e) rcap
  · rw [hcs.length, List.length_zip]; rfl
  · intro d hd
    rw [State.bindStep, ochannel, State.bindMeasurements, hms.channel]
    exact hcs.rest d hd
  · intro i x p hx hp
    obtain ⟨c, hci, hch⟩ := hcs.bound i.val (i, x) p (zip_entryIds hx) (by rw [wr.programs]; exact hp)
    refine ⟨c, hci, ?_⟩
    rw [State.bindStep, ochannel, State.bindMeasurements, hms.channel, ← rnow]
    exact hch
  · intro i x hx
    obtain ⟨m, b, hmi, hslot⟩ := hms.bound i.val (i, x) (zip_measIds hx)
    refine ⟨m, b, hmi, ?_⟩
    rw [State.bindStep, oslot, ← hnow]
    exact hslot
  · rw [State.bindStep, oqueue, hseat]; exact rqueue

/-- Each channel bound serves an entry of the step. -/
theorem StepBound.channel {st : Step} {cs : List (Fin 8)} {ms : List (Fin 6)} (h : StepBound k st s t cs ms)
    (href : s.referencesOk st = true) {c : Fin 8} (hc : c ∈ cs) :
    ∃ (i : Fin 3) (x : ChannelEntry) (p : Program), x ∈ st.entries ∧ t.channel c = Channel.bound k i x p s.now := by
  obtain ⟨i, hi⟩ := List.mem_iff_getElem?.mp hc
  have hlt : i < min 3 st.entries.length := h.length ▸ (List.getElem?_eq_some_iff.mp hi).1
  have hx := List.getElem?_eq_getElem (l := st.entries) (i := i) (by omega)
  have hmem := List.mem_of_getElem? hx
  simp only [State.referencesOk, Bool.and_eq_true, List.all_eq_true] at href
  obtain ⟨p, hp⟩ := Option.isSome_iff_exists.mp (href.1 _ hmem)
  obtain ⟨d, hd, hch⟩ := h.entry ⟨i, by omega⟩ _ p hx hp
  obtain rfl : c = d := by simpa [hi] using hd
  exact ⟨_, _, p, hmem, hch⟩

/-! ### The start of the head step (R32) -/

theorem takeHead_keeps (k : Fin 4) (st : Step) (rest : List Step) : (s.takeHead k st rest).record k = s.record k ∧
    ((s.takeHead k st rest).seat k).queue = rest ∧
    ((s.takeHead k st rest).seat k).running = some (Running.fresh st s.now) ∧
    ((s.takeHead k st rest).seat k).results = (s.seat k).results ∧
    ((s.takeHead k st rest).seat k).outputs = (s.seat k).outputs ∧
    (∀ c, (s.takeHead k st rest).channel c = s.channel c) ∧ (∀ m, (s.takeHead k st rest).slot m = s.slot m) ∧
    (s.takeHead k st rest).waitList = s.waitList ∧ (s.takeHead k st rest).now = s.now ∧
    (s.takeHead k st rest).capture k = s.capture k := by
  unfold State.takeHead
  simp [State.record]

theorem replacesKept_congr (h : ∀ c, t.channel c = s.channel c) (st : Step) :
    t.replacesKept k st = s.replacesKept k st := by
  simp only [State.replacesKept, State.keptChannel, h]

theorem need_congr (h : ∀ c, t.channel c = s.channel c) (st : Step) : t.need k st = s.need k st := by
  simp only [State.need, replacesKept_congr h]

theorem freeChannelCount_congr (h : ∀ c, t.channel c = s.channel c) : t.freeChannelCount = s.freeChannelCount := by
  simp only [State.freeChannelCount, h]

theorem freeSlotCount_congr (h : ∀ m, t.slot m = s.slot m) : t.freeSlotCount = s.freeSlotCount := by
  simp only [State.freeSlotCount, h]

/-- No TIMER channel among the channels, no first trigger (R35, stage 5). -/
theorem firstTriggers_none {cs : List (Fin 8)} (h : ∀ c ∈ cs, ∀ n, (s.channel c).trigger ≠ some (.timer n)) :
    s.firstTriggers cs = (s, false) := by
  induction cs with
  | nil => rfl
  | cons c cs ih =>
    unfold State.firstTriggers
    split
    · next n hn => exact absurd hn (h c List.mem_cons_self n)
    · exact ih fun d hd => h d (List.mem_cons_of_mem _ hd)

theorem freeReplaced_congr (h : ∀ c, t.channel c = s.channel c) (st : Step) (d : Fin 8) :
    (t.freeReplaced k st).channel d = (s.freeReplaced k st).channel d := by
  rw [freeReplaced_channel, freeReplaced_channel, replacesKept_congr h, h]

/-- Taking the head step from the queue does not change what its start binds. -/
theorem StepBound.of_takeHead {st : Step} {rest : List Step} {cs : List (Fin 8)} {ms : List (Fin 6)}
    (h : StepBound k st (s.takeHead k st rest) t cs ms) : StepBound k st s t cs ms := by
  obtain ⟨trec, -, -, tres, tout, tchannel, -, twait, tnow, tcap⟩ := takeHead_keeps (s := s) k st rest
  have tfree := freeReplaced_congr (k := k) tchannel st
  have tprog : ∀ i, (s.takeHead k st rest).program i = s.program i := fun i => by simp [State.takeHead]
  exact
    { running := tnow ▸ h.running
      record := trec ▸ h.record
      results := tres ▸ h.results
      outputs := tout ▸ h.outputs
      atRest := tout ▸ h.atRest
      waitList := twait ▸ h.waitList
      watched := tcap ▸ h.watched
      opened := h.opened
      length := h.length
      free := fun c hc => tfree c ▸ h.free c hc
      rest := fun d hd => (h.rest d hd).trans (tfree d)
      entry := fun i x p hx hp => tnow ▸ h.entry i x p hx (by rw [tprog]; exact hp)
      measurement := tnow ▸ h.measurement }

/-- The head step leaves the queue and binds what it names, before its first triggers (R32 to R35). -/
theorem takeHead_bound {st : Step} (rest : List Step) (href : s.referencesOk st = true)
    (hc : (s.need k st).1 ≤ s.freeChannelCount) (hm : st.measurements.length ≤ s.freeSlotCount) :
    (∃ cs ms, StepBound k st s ((s.takeHead k st rest).bindStep k st) cs ms) ∧
      (((s.takeHead k st rest).bindStep k st).seat k).queue = rest := by
  obtain ⟨-, hqueue, hrun, -, -, hchannel, hslot, -, hnow, -⟩ := takeHead_keeps (s := s) k st rest
  obtain ⟨⟨cs, ms, hb⟩, hq⟩ := bindStep_bound (s := s.takeHead k st rest) (k := k) (st := st)
    (hrun.trans (by rw [hnow]))
    (by rw [← href]; simp [State.referencesOk, State.takeHead])
    (by rw [need_congr hchannel, freeChannelCount_congr hchannel]; exact hc)
    (by rw [freeSlotCount_congr hslot]; exact hm)
  exact ⟨⟨cs, ms, hb.of_takeHead⟩, hq.trans hqueue⟩

/-! ### The three ways a head step starts (R32, R33, R35) -/

theorem takeHead_referencesOk (st x : Step) (rest : List Step) :
    (s.takeHead k st rest).referencesOk x = s.referencesOk x := by
  simp [State.takeHead, State.referencesOk]

theorem takeHead_promptGranted (st x : Step) (rest : List Step) :
    (s.takeHead k st rest).promptGranted k x = s.promptGranted k x := by
  simp [State.takeHead, State.promptGranted, State.wordGranted, State.record]

/-- A step that can be bound, with its first triggers. -/
theorem startTaken_bound {st : Step} (rest : List Step) (href : s.referencesOk st = true)
    (hp : s.promptGranted k st = true) : (s.takeHead k st rest).startTaken k st =
      (let v := (s.takeHead k st rest).bindStep k st
       if (v.firstTriggers (v.stepChannels k)).2 then
         ((v.firstTriggers (v.stepChannels k)).1.abortRunning k .regionDenied, true)
       else ((v.firstTriggers (v.stepChannels k)).1, false)) := by
  unfold State.startTaken
  rw [takeHead_referencesOk, takeHead_promptGranted, href, hp]
  rfl

/-- A reference not written, or a bitmap region not granted, ends the step at once (R32, R33). -/
theorem startTaken_refused {st : Step} (rest : List Step) {c : Cause}
    (h : (s.referencesOk st = false ∧ c = .badReference) ∨
      (s.referencesOk st = true ∧ s.promptGranted k st = false ∧ c = .regionDenied)) :
    (s.takeHead k st rest).startTaken k st = ((s.takeHead k st rest).abortRunning k c, true) := by
  unfold State.startTaken
  rw [takeHead_referencesOk, takeHead_promptGranted]
  rcases h with ⟨href, rfl⟩ | ⟨href, hp, rfl⟩
  · rw [href]; rfl
  · rw [href, hp]; rfl

theorem startHead_cons {st : Step} {rest : List Step} (hq : (s.seat k).queue = st :: rest) : s.startHead k =
    (let started := (s.takeHead k st rest).startTaken k st
     if started.2 then (started.1.settle k .aborted st.policy, true) else (started.1, false)) := by
  unfold State.startHead
  rw [hq]

/-- A head step whose references are written, whose bitmap is granted, whose need is covered and which has no TIMER
entry starts and runs on (R32 to R35). -/
theorem startHead_runs {st : Step} {rest : List Step} (hq : (s.seat k).queue = st :: rest)
    (href : s.referencesOk st = true) (hp : s.promptGranted k st = true) (hc : (s.need k st).1 ≤ s.freeChannelCount)
    (hm : st.measurements.length ≤ s.freeSlotCount) (htimer : ∀ e ∈ st.entries, ∀ n, e.trigger ≠ .timer n) :
    (s.startHead k).2 = false ∧ ((s.startHead k).1.seat k).queue = rest ∧
      ∃ cs ms, StepBound k st s (s.startHead k).1 cs ms := by
  obtain ⟨⟨cs, ms, hb⟩, hqueue⟩ := takeHead_bound (k := k) rest href hc hm
  have hcs : State.stepChannels ((s.takeHead k st rest).bindStep k st) k = cs := by
    simp [State.stepChannels, hb.running]
  have hnone : State.firstTriggers ((s.takeHead k st rest).bindStep k st) cs =
      ((s.takeHead k st rest).bindStep k st, false) := by
    refine firstTriggers_none fun c hc n => ?_
    obtain ⟨i, x, p, hx, hch⟩ := hb.channel href hc
    rw [hch]
    simpa [Channel.bound] using htimer x hx n
  rw [startHead_cons hq, startTaken_bound rest href hp]
  simp only [hcs, hnone, Bool.false_eq_true, if_false]
  exact ⟨trivial, hqueue, cs, ms, hb⟩

end Steps
end Machine
end Sys2Proof
end

section
/-! Which steps the last stages of an event start (R28, R31, R41), and what an ended step leaves free for them (R39). -/

namespace Sys2Proof
namespace Machine
namespace Steps

variable {s t : State} {k : Fin 4}

/-! ### Covered needs (R29) -/

theorem covered_of_counts {st : Step} {rest : List Step} (hq : (s.seat k).queue = st :: rest)
    (hc : (s.need k st).1 ≤ s.freeChannelCount) (hm : st.measurements.length ≤ s.freeSlotCount) :
    s.covered k = true := by
  simp only [State.covered, State.headNeed, hq, Bool.and_eq_true, decide_eq_true_eq]
  exact ⟨hc, hm⟩

theorem need_le (k : Fin 4) (st : Step) : (s.need k st).1 ≤ st.entries.length := Nat.sub_le _ _

/-! ### The starts of a sequence -/

/-- The head step of `k` can be bound and runs on after its start. -/
structure Startable (s : State) (k : Fin 4) (st : Step) (rest : List Step) : Prop where
  queue : (s.seat k).queue = st :: rest
  references : s.referencesOk st = true
  prompt : s.promptGranted k st = true
  channels : (s.need k st).1 ≤ s.freeChannelCount
  slots : st.measurements.length ≤ s.freeSlotCount
  untimed : ∀ e ∈ st.entries, ∀ n, e.trigger ≠ .timer n

theorem Startable.covered {st : Step} {rest : List Step} (h : Startable s k st rest) : s.covered k = true :=
  covered_of_counts h.queue h.channels h.slots

theorem Startable.startHead {st : Step} {rest : List Step} (h : Startable s k st rest) :
    (s.startHead k).2 = false ∧ ((s.startHead k).1.seat k).queue = rest ∧
      ∃ cs ms, StepBound k st s (s.startHead k).1 cs ms :=
  startHead_runs h.queue h.references h.prompt h.channels h.slots h.untimed

/-- The head step considered last starts, and nothing follows it (R28, R41). -/
theorem consider_starts {st : Step} {rest : List Step} (h : Startable s k st rest)
    (ht : (s.record k).state = .testing) (hr : (s.seat k).running = none) (hw : s.waitList = []) :
    ((s.sequence [.consider k]).seat k).queue = rest ∧ ∃ cs ms, StepBound k st s (s.sequence [.consider k]) cs ms := by
  obtain ⟨hrun, hqueue, hbound⟩ := h.startHead
  have hcons : s.considerable k = true :=
    (considerable_iff s k).mpr ⟨ht, hr, by simp [hw], by simp [h.queue]⟩
  rw [sequence_consider_start hcons hw h.covered, hrun]
  simp only [afterStart, Bool.false_eq_true, if_false, List.nil_append, sequence_nil]
  exact ⟨hqueue, hbound⟩

/-- The oldest waiting seat starts its head step; what follows leaves it running (R31). -/
theorem arbiter_starts {st : Step} {rest : List Step} {ws : List (Fin 4)} (h : Startable s k st rest)
    (hw : s.waitList = k :: ws) (hn : k ∉ ws) (ts : List Task) :
    k ∉ (s.sequence (.arbiter :: ts)).waitList ∧ ((s.sequence (.arbiter :: ts)).seat k).queue = rest ∧
      ∃ r, ((s.sequence (.arbiter :: ts)).seat k).running = some r ∧ r.step = st ∧ r.start = s.now := by
  have h' : Startable { s with waitList := ws } k st rest :=
    ⟨h.queue, h.references, h.prompt, h.channels, h.slots, h.untimed⟩
  obtain ⟨hrun, hqueue, cs, ms, hb⟩ := h'.startHead
  rw [sequence_arbiter_start hw h.covered, hrun]
  simp only [afterStart, Bool.false_eq_true, if_false, List.nil_append]
  have hwait : k ∉ (State.startHead { s with waitList := ws } k).1.waitList := by rw [hb.waitList]; exact hn
  have w := works_sequence_others (.arbiter :: ts) (not_considerable_of_running (by rw [hb.running]; simp)) hwait
  obtain ⟨-, tqueue, trun, -⟩ := others_keep w
  exact ⟨not_waiting_of_others w hwait, tqueue.trans hqueue, _, trun.trans hb.running, rfl, rfl⟩

/-! ### What the end of a step leaves free (R39) -/

/-- The choice of a kept channel frees at most channels, and binds none (R39, stage 2). -/
theorem keepChannel_binding (r : Running) (c : Fin 8) : ((s.keepChannel k r).channel c).state = .free ∨
    ((s.keepChannel k r).channel c).state = (s.channel c).state ∧
      ((s.keepChannel k r).channel c).seat = (s.channel c).seat := by
  have hset : ∀ d : Fin 8, ((s.setChannel d (s.channel d).toKept).channel c).state = (s.channel c).state ∧
      ((s.setChannel d (s.channel d).toKept).channel c).seat = (s.channel c).seat := by
    intro d
    rw [channel_setChannel]
    split
    · next h => exact h ▸ ⟨rfl, rfl⟩
    · exact ⟨rfl, rfl⟩
  unfold State.keepChannel
  split
  · exact Or.inr ⟨rfl, rfl⟩
  · next d _ =>
    dsimp only
    split
    · exact Or.inr (hset d)
    · next old _ =>
      rw [freeChannel_channel]
      split
      · exact Or.inl rfl
      · exact Or.inr (hset d)

/-- The end of a step frees channels and binds none. -/
theorem endStep_binding (r : Running) (c : Fin 8) : ((s.endStep k r).channel c).state = .free ∨
    ((s.endStep k r).channel c).state = (s.channel c).state ∧
      ((s.endStep k r).channel c).seat = (s.channel c).seat := by
  rw [endStep_channel]
  rcases keepChannel_binding (s := s.freeChannels r.unkept) (k := k) r c with h | ⟨hstate, hseat⟩
  · exact Or.inl h
  · rw [hstate, hseat, freeChannels_channel]
    split
    · exact Or.inl rfl
    · exact Or.inr ⟨rfl, rfl⟩

theorem endStep_freeChannelCount (r : Running) : s.freeChannelCount ≤ (s.endStep k r).freeChannelCount :=
  freeChannelCount_mono fun c hc => (endStep_binding r c).elim id fun h => h.1.trans hc

theorem endStep_freeSlotCount (r : Running) : s.freeSlotCount ≤ (s.endStep k r).freeSlotCount :=
  freeSlotCount_mono fun m hm => by
    rw [endStep_slot]
    split
    · rfl
    · exact hm

theorem leaveFor_slot (st : SeatState) (n : Option Nat) (m : Fin 6) :
    (s.leaveFor k st n).slot m = if (s.slot m).seat = some k then MeasSlot.free else s.slot m := by
  unfold State.leaveFor
  rw [← leaveTesting_slot]
  simp

/-- A step's end before its seat leaves TESTING leaves no fewer channels free than leaving TESTING alone. -/
theorem endStep_leaveFor_channels (r : Running) (st : SeatState) (n : Option Nat) :
    (s.leaveTesting k).freeChannelCount ≤ ((s.endStep k r).leaveFor k st n).freeChannelCount := by
  refine freeChannelCount_mono fun c hc => ?_
  rw [leaveTesting_channel] at hc
  rw [leaveFor_channel]
  split
  · rfl
  · next hoff =>
    rcases endStep_binding (s := s) (k := k) r c with hfree | ⟨hstate, hseat⟩
    · exact hfree
    · have hsame : ((s.endStep k r).channel c).onSeat k = (s.channel c).onSeat k := by
        simp only [Channel.onSeat, hstate, hseat]
      rw [hstate]
      simpa [← hsame, hoff] using hc

theorem endStep_leaveFor_slots (r : Running) (st : SeatState) (n : Option Nat) :
    (s.leaveTesting k).freeSlotCount ≤ ((s.endStep k r).leaveFor k st n).freeSlotCount := by
  refine freeSlotCount_mono fun m hm => ?_
  rw [leaveTesting_slot] at hm
  rw [leaveFor_slot, endStep_slot]
  by_cases hr : m ∈ r.slots
  · simp [hr, MeasSlot.free]
  · simpa [hr] using hm

end Steps
end Machine
end Sys2Proof
end

section
/-! The expiry of a window (R37, R39, R41, R128, R144, R157). -/

namespace Sys2Proof
namespace Machine
namespace Steps

variable {s t : State} {k : Fin 4}

/-! ### The parts judged at expiry -/

theorem exec_windowExpiry {r : Running} (hr : (s.seat k).running = some r) (hd : msReached s.now r.deadline = true) :
    exec (.windowExpiry k) s = .next (s.finishStep k (s.judgeOpen k r)) := by
  have hready : s.windowReady k = true := by simpa only [State.windowReady, hr] using hd
  change whenDue s (s.windowReady k) (s.expireWindow k) = _
  simp only [whenDue, hready, if_true, State.expireWindow, hr]

/-- The entry of the ended step is among the results, whatever the end of the step starts (R40, R168). -/
theorem finishStep_results (r : Running) :
    ((s.seat k).results.append (s.endEntry r)).entries <+: ((s.finishStep k r).seat k).results.entries := by
  obtain ⟨-, -, -, hres⟩ := endStep_seat (s := s) (k := k) r
  have w : Works (fun _ => True) (s.endStep k r) (s.finishStep k r) :=
    (works_settle k _ _ trivial).trans (works_sequence _ (fun _ _ => trivial) fun x _ => by cases x <;> trivial)
  rw [← hres]
  exact appended_prefix (w.results k)

theorem expiredMeas_cases (m : Fin 6) (l : Limit) (x : MeasReport) : s.expiredMeas m (some x) = some x ∧
    (s.slotLimit m = some l → s.expiredMeas m none = some ((s.slot m).expiryReport l)) := by
  refine ⟨rfl, fun h => ?_⟩
  simp only [State.expiredMeas, h]

theorem settleVerdict_eq (z : Zone) : settleVerdict z =
    if z = .outLow then .failLow else if z = .outHigh then .failHigh else .failTimeout := by
  cases z <;> rfl

/-- In SETTLE the last zone decides (R128). -/
theorem expiryReport_settle {m : MeasSlot} {l : Limit} (h : l.mode = .settle) :
    (m.expiryReport l).samples = m.samples ∧ (m.expiryReport l).value = m.y ∧
    (m.expiryReport l).verdict = if m.y = none then .failTimeout else settleVerdict m.zone := by
  simp only [MeasSlot.expiryReport, h, true_and]
  cases m.y <;> simp

/-- In the peak modes the zone of the extreme decides (R128). -/
theorem expiryReport_peak {m : MeasSlot} {l : Limit} (h : l.mode ≠ .settle) :
    (m.expiryReport l).samples = m.samples ∧ (m.expiryReport l).value = m.extreme ∧
    (m.extreme = none → (m.expiryReport l).verdict = .failTimeout) ∧
    ∀ y, m.extreme = some y → (m.expiryReport l).verdict = peakVerdict (zoneOf l y) := by
  unfold MeasSlot.expiryReport
  split
  · next hm => exact absurd hm h
  · exact ⟨rfl, rfl, fun hx => by simp only [hx], fun y hx => by simp only [hx]⟩
  · exact ⟨rfl, rfl, fun hx => by simp only [hx], fun y hx => by simp only [hx]⟩

theorem captureReport_eq (c : Capture) (e : Expectation) : c.expiryReport e =
    { verdict := if e.mode = .absent ∧ c.matchCount = 0 then .pass else .failPattern, count := c.matchCount } := by
  unfold Capture.expiryReport
  cases e.mode <;> simp

theorem judgeOpen_expectation {r : Running} {e : Expectation} (he : r.step.expectation = some e)
    (hr : r.expectReport = none) : (s.judgeOpen k r).expectReport = some ((s.capture k).expiryReport e) := by
  simp only [State.judgeOpen, he, hr]
  rfl

theorem judgeOpen_prompt {r : Running} {p : Prompt} (hp : r.step.prompt = some p) (hr : r.promptReport = none) :
    (s.judgeOpen k r).promptReport = some { verdict := .failTimeout, answer := none } := by
  simp only [State.judgeOpen, hp, hr]

/-! ### A step with no parts -/

/-- A running step with no parts, none of them judged. -/
structure Dwell (r : Running) : Prop where
  slots : r.slots = []
  expectation : r.step.expectation = none
  prompt : r.step.prompt = none
  expectReport : r.expectReport = none
  promptReport : r.promptReport = none

/-- Nothing of a dwell is judged, and it passes (R38). -/
theorem Dwell.judge {r : Running} (h : Dwell r) : judgeStep (s.judgeOpen k r).judged = (.noPart, .pass) := by
  simp [State.judgeOpen, Running.judged, judgeStep, h.slots, h.expectation, h.prompt, h.expectReport, h.promptReport]

theorem Dwell.no_hold {r : Running} (h : Dwell r) :
    ¬ (2 ≤ (judgeStep (s.judgeOpen k r).judged).2.rank ∧ (s.judgeOpen k r).step.policy = .holdSeat) := by
  rw [h.judge]
  exact fun ⟨hrank, _⟩ => absurd hrank (by decide)

/-- What a step can start with after the end of another: its references, its bitmap and its need are as before. -/
theorem startable_of_works {T : Fin 4 → Prop} {j : Fin 4} {st : Step} {rest : List Step} (w : Works T s t)
    (hq : (t.seat j).queue = st :: rest) (href : s.referencesOk st = true) (hp : s.promptGranted j st = true)
    (hc : st.entries.length ≤ t.freeChannelCount) (hm : st.measurements.length ≤ t.freeSlotCount)
    (htimer : ∀ e ∈ st.entries, ∀ n, e.trigger ≠ .timer n) : Startable t j st rest where
  queue := hq
  references := (works_referencesOk w st).trans href
  prompt := (works_promptGranted w j st).trans hp
  channels := (need_le j st).trans hc
  slots := hm
  untimed := htimer

/-- The seat goes to POWERED, and the oldest waiting seat starts when the channels it leaves cover the need (R31). -/
theorem finishStep_waiting {r : Running} {j : Fin 4} {ws : List (Fin 4)} {st : Step} {rest : List Step}
    (ho : ¬ (2 ≤ (judgeStep r.judged).2.rank ∧ r.step.policy = .holdSeat)) (hqk : (s.seat k).queue = [])
    (hw : s.waitList = j :: ws) (hn : (j :: ws).Nodup) (hk : k ∉ s.waitList) (hq : (s.seat j).queue = st :: rest)
    (hc : st.entries.length ≤ (s.leaveTesting k).freeChannelCount)
    (hm : st.measurements.length ≤ (s.leaveTesting k).freeSlotCount) (href : s.referencesOk st = true)
    (hp : s.promptGranted j st = true) (htimer : ∀ e ∈ st.entries, ∀ n, e.trigger ≠ .timer n) :
    j ∉ (s.finishStep k r).waitList ∧ ((s.finishStep k r).seat j).queue = rest ∧
      ∃ r', ((s.finishStep k r).seat j).running = some r' ∧ r'.step = st ∧ r'.start = s.now := by
  have hjk : j ≠ k := fun e => hk (by simp [hw, e])
  have we : Works (· = k) s (s.endStep k r) := works_endStep k r rfl
  have w : Works (· = k) s ((s.endStep k r).leaveFor k .powered none) :=
    we.trans (works_leaveFor (T := (· = k)) k .powered none rfl (by decide) (by decide))
  have hset : (s.endStep k r).settle k (judgeStep r.judged).2 r.step.policy = (s.endStep k r).leaveFor k .powered none :=
    settle_powered ho ((endStep_seat r).2.1.trans hqk)
  have hstart : Startable ((s.endStep k r).leaveFor k .powered none) j st rest :=
    startable_of_works w ((w.othersQueue j hjk).trans hq) href hp (hc.trans (endStep_leaveFor_channels r _ _))
      (hm.trans (endStep_leaveFor_slots r _ _)) htimer
  have hwait : ((s.endStep k r).leaveFor k .powered none).waitList = j :: ws := by
    rw [leaveFor_waitList, endStep_waitList, ← hw]
    exact List.filter_eq_self.mpr fun i hi => bne_iff_ne.mpr fun e => hk (e ▸ hi)
  obtain ⟨hout, hqueue, r', hrun, hstep, hnow⟩ := arbiter_starts hstart hwait (List.nodup_cons.mp hn).1 [.consider k]
  rw [finishStep_eq, hset]
  exact ⟨hout, hqueue, r', hrun, hstep, hnow.trans (works_now w)⟩

/-- The seat stays in TESTING, and the step behind the ended one starts in the state that one leaves (R41). -/
theorem finishStep_next {r : Running} {st : Step} {rest : List Step}
    (ho : ¬ (2 ≤ (judgeStep r.judged).2.rank ∧ r.step.policy = .holdSeat)) (ht : (s.record k).state = .testing)
    (hq : (s.seat k).queue = st :: rest) (hw : s.waitList = []) (hc : st.entries.length ≤ s.freeChannelCount)
    (hm : st.measurements.length ≤ s.freeSlotCount) (href : s.referencesOk st = true)
    (hp : s.promptGranted k st = true) (htimer : ∀ e ∈ st.entries, ∀ n, e.trigger ≠ .timer n) :
    ((s.finishStep k r).seat k).queue = rest ∧ ∃ cs ms, StepBound k st (s.endStep k r) (s.finishStep k r) cs ms := by
  obtain ⟨erec, equeue, erun, -⟩ := endStep_seat (s := s) (k := k) r
  have hset : (s.endStep k r).settle k (judgeStep r.judged).2 r.step.policy = s.endStep k r :=
    settle_stays ho (by rw [equeue, hq]; exact List.cons_ne_nil _ _)
  have ewait : (s.endStep k r).waitList = [] := (endStep_waitList r).trans hw
  have hstart : Startable (s.endStep k r) k st rest :=
    startable_of_works (works_endStep (T := fun _ => True) k r trivial) (equeue.trans hq) href hp
      (hc.trans (endStep_freeChannelCount r)) (hm.trans (endStep_freeSlotCount r)) htimer
  rw [finishStep_eq, hset, sequence_arbiter_idle ewait]
  exact consider_starts hstart (by rw [erec]; exact ht) erun ewait

/-! ### The kept channel (R39, R81) -/

theorem keptChannel_kept {c : Fin 8} (h : s.keptChannel k = some c) : (s.channel c).kept = true := by
  have := List.find?_some h
  simp only [Bool.and_eq_true] at this
  exact this.2

/-- The only entry of a step, marked keep: its channel is kept and the older kept channel is free. -/
theorem endStep_keeps {r : Running} {x : ChannelEntry} {c : Fin 8} (he : r.step.entries = [x]) (hx : x.keep = true)
    (hc : r.channels = [c]) (hk : (s.channel c).kept = false) :
    (s.endStep k r).channel c = (s.channel c).toKept ∧
    ∀ d, s.keptChannel k = some d → (s.endStep k r).channel d = Channel.free := by
  have hone : r.keptOne = some c := by simp [Running.keptOne, he, hc, hx]
  have hnone : s.freeChannels r.unkept = s := by simp [Running.unkept, he, hc, hx, State.freeChannels]
  have hkeep : ∀ d, s.keptChannel k = some d → d ≠ c := by
    intro d hd e
    have := keptChannel_kept hd
    rw [e, hk] at this
    exact nomatch this
  simp only [endStep_channel, hnone, State.keepChannel, hone]
  cases hd : s.keptChannel k with
  | none => simp
  | some d =>
    have hdc := hkeep d hd
    refine ⟨?_, fun d' hd' => ?_⟩
    · simp [freeChannel_channel, Ne.symm hdc]
    · obtain rfl : d = d' := by simpa using hd'
      simp [freeChannel_channel]

/-- A channel in use whose target no entry drives is not reached by the start of a step. -/
theorem StepBound.untaken {st : Step} {cs : List (Fin 8)} {ms : List (Fin 6)} {c : Fin 8} (h : StepBound k st s t cs ms)
    (hs : (s.channel c).state ≠ .free) (ht : ∀ e ∈ st.entries, some e.target ≠ (s.channel c).target) :
    t.channel c = s.channel c := by
  have hfree : (s.freeReplaced k st).channel c = s.channel c := by
    rw [freeReplaced_channel, if_neg]
    intro hrep
    obtain ⟨-, e, he, htarget⟩ := replacesKept_bound hrep
    exact ht e he htarget.symm
  exact (h.rest c fun hc => hs (hfree ▸ h.free c hc)).trans hfree

/-- A channel that is not kept stays so through the start of a step. -/
theorem StepBound.not_kept {st : Step} {cs : List (Fin 8)} {ms : List (Fin 6)} {d : Fin 8} (h : StepBound k st s t cs ms)
    (href : s.referencesOk st = true) (hd : (s.channel d).kept = false) : (t.channel d).kept = false := by
  by_cases hmem : d ∈ cs
  · obtain ⟨i, x, p, -, hch⟩ := h.channel href hmem
    rw [hch]
    rfl
  · rw [h.rest d hmem, freeReplaced_channel]
    split
    · rfl
    · exact hd

/-! ### The obligation -/

/-- Settles O35: what is judged is read off the definitions; what is started follows from the channels the ended step
leaves free. -/
theorem windowExpiryJudgesOpenParts : Obligations.WindowExpiryJudgesOpenParts := by
  refine ⟨⟨fun s k r hr hd => ?_, fun s m l x => expiredMeas_cases m l x, fun m l => ?_, fun s k r => ?_⟩,
    fun s k r ht hr hd _ hslots hexpect hprompt hereport hpreport => ?_, fun s => ⟨?_, ?_⟩⟩
  · exact ⟨_, s.endEntry (s.judgeOpen k r), exec_windowExpiry hr hd, rfl, rfl, rfl, rfl, rfl, finishStep_results _⟩
  · by_cases hmode : l.mode = .settle
    · obtain ⟨hsamples, hvalue, hverdict⟩ := expiryReport_settle (m := m) hmode
      refine ⟨hsamples, fun _ => ⟨hvalue, fun hy => ?_, fun hy => ?_⟩, fun h => absurd hmode h⟩
      · rw [hverdict, if_pos hy]
      · rw [hverdict, if_neg hy, settleVerdict_eq]
    · obtain ⟨hsamples, hvalue, hnone, hsome⟩ := expiryReport_peak (m := m) hmode
      refine ⟨hsamples, fun h => absurd h hmode, fun _ => ⟨hvalue, hnone, fun y hy => ?_⟩⟩
      rw [hsome y hy]
      exact ⟨fun hz => by rw [hz]; rfl, fun hz => by rw [hz]; rfl, fun hz => by rw [hz]; rfl, fun hz => by rw [hz]; rfl⟩
  · exact ⟨fun e he hreport => by rw [judgeOpen_expectation he hreport, captureReport_eq],
      fun p hp hreport => judgeOpen_prompt hp hreport⟩
  · have hdwell : Dwell r := ⟨hslots, hexpect, hprompt, hereport, hpreport⟩
    have hpass := hdwell.judge (s := s) (k := k)
    have ho := hdwell.no_hold (s := s) (k := k)
    refine ⟨fun hq => ?_, fun st rest hq hw hc hm href hp htimer => ?_⟩
    · obtain ⟨trec, trun, tres⟩ := finishStep_powered ho hq
      refine ⟨_, exec_windowExpiry hr hd, by rw [trec]; rfl, trun, by rw [trec]; rfl,
        ⟨_, tres, rfl, congrArg Prod.snd hpass, congrArg Prod.fst hpass, rfl, rfl, rfl⟩, ?_⟩
      exact fun j ws st rest hw hn hk _ _ hqj hc hm href hp htimer =>
        finishStep_waiting ho hq hw hn hk hqj hc hm href hp htimer
    · have w : Works (fun _ => True) s (s.endStep k (s.judgeOpen k r)) := works_endStep k _ trivial
      obtain ⟨hqueue, cs, ms, hb⟩ := finishStep_next ho ht hq hw hc hm href hp htimer
      refine ⟨_, exec_windowExpiry hr hd, ?_, hqueue, ⟨_, hb.running, rfl, works_now w⟩, ?_⟩
      · rw [hb.record, (endStep_seat _).1]
        exact ht
      · intro x c he hx hch _ hstate hkept htarget
        obtain ⟨hkeep, hold⟩ := endStep_keeps (s := s) (k := k) (r := s.judgeOpen k r) he hx hch hkept
        refine ⟨(hb.untaken (by rw [hkeep]; exact hstate) (by rw [hkeep]; exact htarget)).trans hkeep, fun d hd => ?_⟩
        exact hb.not_kept ((works_referencesOk w st).trans href) (by rw [hold d hd]; rfl)
  · exact fun hw => (sequence_arbiter_idle hw []).trans sequence_nil
  · exact fun j ws hw hc => (sequence_arbiter_uncovered hw hc []).trans sequence_nil

end Steps
end Machine
end Sys2Proof
end

section
/-! The first trigger of a TIMER channel, with its first move (R44, R58, R71, R74; log entry 10). -/

namespace Sys2Proof
namespace Machine
namespace Steps

variable {s t : State} {k : Fin 4} {c : Fin 8}

/-! ### What a move leaves of the seats (R74, R77) -/

theorem takeInOpenOrder_keeps {α β : Type} {f : State → α → State} {view : State → β} (hf : ∀ u a, view (f u a) = view u)
    (hd : ∀ (u : State) n, view (u.drawn n) = view u) (xs : List α) : view (s.takeInOpenOrder xs f) = view s := by
  have hfold : ∀ (ys : List α) (u : State), view (ys.foldl f u) = view u := by
    intro ys
    induction ys with
    | nil => exact fun _ => rfl
    | cons y ys ih => exact fun u => (ih (f u y)).trans (hf u y)
  unfold State.takeInOpenOrder
  split
  · rfl
  · exact hf _ _
  · exact (hfold _ _).trans (hd _ _)

/-- A mark opens gates and posts a notice; no seat changes (R77). -/
theorem raiseMark_seat (c : Fin 8) (k : Fin 4) (p : Program) (j : Fin 4) : (s.raiseMark c k p).seat j = s.seat j := by
  have hopened : (s.openMarked c k).seat j = s.seat j := by
    unfold State.openMarked
    split
    · split
      · exact takeInOpenOrder_keeps (view := fun u => u.seat j) (fun u m => (openGate_keeps m).1 j) (fun _ _ => rfl) _
      · rfl
    · rfl
  unfold State.raiseMark
  dsimp only
  split
  · rw [(postSeat_keeps k _).1]; exact hopened
  · exact hopened

theorem raiseMark_channel (c : Fin 8) (k : Fin 4) (p : Program) (d : Fin 8) :
    (s.raiseMark c k p).channel d = s.channel d := by
  simp only [State.channel, raiseMark_channels]

/-- The word reaches the output, or the frame slot, and nothing else of the seat (R76, R90). -/
theorem deliver_seat (k : Fin 4) (x : Target) (made : Nat) (w : Word) :
    ((s.deliver k x made w).seat k).outputs = (s.seat k).outputs.take x w ∧
    ((s.deliver k x made w).seat k).running = (s.seat k).running := by
  cases x <;> simp [State.deliver, State.setFrame, Outputs.take]

/-- A granted move that ends no transaction (R74): its channel counts, its word arrives. -/
theorem makeMove_counts {x : Target} {p : Program} (hrem : 2 ≤ (s.channel c).remaining) :
    (s.makeMove c k x p).channel c =
      { (s.channel c).counted p with outstanding := (s.channel c).outstanding - 1 } ∧
    ((s.makeMove c k x p).seat k).outputs =
      (s.seat k).outputs.take x (Memory.read s.pattern (s.channel c).address.toNat) ∧
    ((s.makeMove c k x p).seat k).running = (s.seat k).running := by
  obtain ⟨hout, hrun⟩ := deliver_seat (s := s) k x (s.channel c).made
    (Memory.read s.pattern (s.channel c).address.toNat)
  have hleft : ((s.channel c).counted p).remaining ≠ 0 := by
    simp only [Channel.counted]
    omega
  unfold State.makeMove
  simp only [if_neg hleft]
  split
  · simp [raiseMark_seat, raiseMark_channel, hout, hrun]
  · simp [hout, hrun]

/-! ### One channel's record (R58, R74) -/

@[simp] theorem setChannel_setChannel (x y : Channel) : (s.setChannel c x).setChannel c y = s.setChannel c y := by
  simp [State.setChannel]

theorem channelProgram_setChannel {x : Channel} (h : x.program = (s.channel c).program) :
    (s.setChannel c x).channelProgram c = s.channelProgram c := by
  unfold State.channelProgram
  rw [channel_setChannel_same, h]
  rfl

theorem moveGranted_setChannel {x : Channel} (h : x.address = (s.channel c).address) :
    (s.setChannel c x).moveGranted c k = s.moveGranted c k := by
  unfold State.moveGranted
  rw [channel_setChannel_same, h]
  rfl

/-- A move of a bound channel is granted or refused (R58, R74). -/
theorem moveOnce_eq {x : Target} {p : Program} (hstate : (s.channel c).state ≠ .free)
    (hseat : (s.channel c).seat = some k) (htarget : (s.channel c).target = some x)
    (hp : s.channelProgram c = some p) :
    s.moveOnce c = if s.moveGranted c k then (s.makeMove c k x p, false) else (s.refuseMove c, true) := by
  unfold State.moveOnce
  rw [if_neg hstate, hseat, htarget, hp]

/-! ### The first trigger (R71) -/

/-- An armed TIMER channel of seat `k` with its program, before any trigger. -/
structure TimerArmed (s : State) (c : Fin 8) (k : Fin 4) (x : Target) (n : Nat) (p : Program) : Prop where
  state : (s.channel c).state = .armed
  seat : (s.channel c).seat = some k
  target : (s.channel c).target = some x
  trigger : (s.channel c).trigger = some (.timer n)
  program : s.channelProgram c = some p
  outstanding : (s.channel c).outstanding = 0

/-- The record of a TIMER channel that has just asked for its first block (R70, R71). -/
def timed (ch : Channel) (n block : Nat) : Channel :=
  { ch with
    nextTimer := ch.nextTimer.map (fun t => msAfter t n), state := .running, outstanding := min block ch.remaining,
    made := 0 }

/-- Once armed, the trigger asks for the block whose first move is made or refused with it (R70, R71). -/
theorem TimerArmed.takeTimer {x : Target} {n : Nat} {p : Program} (h : TimerArmed s c k x n p) : s.takeTimer c =
    State.blockEnd ((s.setChannel c (timed (s.channel c) n p.block)).moveOnce c) c .armed := by
  have hrearm : (s.channel c).rearm = { s.channel c with nextTimer := (s.channel c).nextTimer.map (fun t => msAfter t n) } := by
    simp only [Channel.rearm, h.trigger]
  have htakes : (s.channel c).rearm.takesTrigger = true := by
    simp [hrearm, Channel.takesTrigger, h.state, h.outstanding]
  have hrequest : (s.channel c).rearm.request p.block = timed (s.channel c) n p.block := by
    unfold Channel.request
    rw [if_pos htakes, hrearm]
    rfl
  have hprog : (s.setChannel c (s.channel c).rearm).channelProgram c = some p :=
    (channelProgram_setChannel (by rw [hrearm])).trans h.program
  have hstate : (s.channel c).rearm.state = .armed := by rw [hrearm]; exact h.state
  have htrigger : (s.setChannel c (s.channel c).rearm).trigger c = s.setChannel c (timed (s.channel c) n p.block) := by
    unfold State.trigger
    simp only [hprog, channel_setChannel_same, hrequest, setChannel_setChannel]
  unfold State.takeTimer State.triggerAndMove
  rw [channel_setChannel_same, if_pos htakes, htrigger, hstate]

theorem TimerArmed.moveOnce {x : Target} {n : Nat} {p : Program} (h : TimerArmed s c k x n p) :
    (s.setChannel c (timed (s.channel c) n p.block)).moveOnce c =
      if s.moveGranted c k then ((s.setChannel c (timed (s.channel c) n p.block)).makeMove c k x p, false)
      else ((s.setChannel c (timed (s.channel c) n p.block)).refuseMove c, true) := by
  have hgranted : (s.setChannel c (timed (s.channel c) n p.block)).moveGranted c k = s.moveGranted c k :=
    moveGranted_setChannel rfl
  rw [moveOnce_eq (k := k) (x := x) (p := p), hgranted]
  · rw [channel_setChannel_same]; exact fun e => nomatch e
  · rw [channel_setChannel_same]; exact h.seat
  · rw [channel_setChannel_same]; exact h.target
  · exact (channelProgram_setChannel (x := timed (s.channel c) n p.block) rfl).trans h.program

/-- The region granted: the first move is made with the trigger (R58, R74). -/
theorem TimerArmed.takeTimer_granted {x : Target} {n : Nat} {p : Program} (h : TimerArmed s c k x n p)
    (hg : s.moveGranted c k = true) :
    s.takeTimer c = ((s.setChannel c (timed (s.channel c) n p.block)).makeMove c k x p, false) := by
  rw [h.takeTimer, h.moveOnce, if_pos hg]
  rfl

/-- The region not granted: the move is refused, and the channel's record alone has changed (R44, R58). -/
theorem TimerArmed.takeTimer_refused {x : Target} {n : Nat} {p : Program} (h : TimerArmed s c k x n p)
    (hg : s.moveGranted c k = false) : ∃ ch, s.takeTimer c = (s.setChannel c ch, true) := by
  rw [h.takeTimer, h.moveOnce, hg]
  simp only [State.blockEnd, State.refuseMove, Bool.false_eq_true, if_true, if_false, setChannel_setChannel]
  exact ⟨_, rfl⟩

end Steps
end Machine
end Sys2Proof
end

section
/-! Entering TESTING (R28 to R35, R41, R44, R58, R90, R96). -/

namespace Sys2Proof
namespace Machine
namespace Steps

variable {s t : State} {k : Fin 4}

/-! ### The seat in TESTING, before its head step is considered (R90, R96) -/

/-- The seat in TESTING: its outputs at rest, its frame schedules started. -/
def entered (s : State) (k : Fin 4) : State := ((s.enterState k .testing none none).restOutputs k).scheduleFrames k

theorem enterTesting_eq : s.enterTesting k = (entered s k).sequence [.consider k] := rfl

theorem works_entered : Works (· = k) s (entered s k) := by
  have henter : Works (· = k) s (s.enterState k .testing none none) :=
    works_enterState k .testing none none rfl (by decide) rfl
  exact henter.trans ((works_restOutputs k).trans (works_eachFrame k
    (fun f => f.schedule ((s.enterState k .testing none none).restOutputs k).clock)))

theorem entered_seat : ∃ fs, (entered s k).seat k =
      { s.seat k with
        record := (s.record k).enter .testing none, outputs := (s.seat k).outputs.restAll, frames := fs } ∧
    ∀ f : Fin 8, fs[f] = (s.frame k f).schedule s.clock := by
  obtain ⟨fs, heq, hfs⟩ := eachFrame_eq (s := (s.enterState k .testing none none).restOutputs k) (k := k)
    fun f => f.schedule ((s.enterState k .testing none none).restOutputs k).clock
  refine ⟨fs, ?_, fun f => ?_⟩
  · unfold entered State.scheduleFrames
    rw [heq]
    simp [State.restOutputs, enterState_seat_same]
  · rw [hfs f]
    simp [State.frame, State.restOutputs, enterState_seat_same]

theorem entered_seat_other {j : Fin 4} (hj : j ≠ k) : (entered s k).seat j = s.seat j := by
  obtain ⟨fs, heq, -⟩ := eachFrame_eq (s := (s.enterState k .testing none none).restOutputs k) (k := k)
    fun f => f.schedule ((s.enterState k .testing none none).restOutputs k).clock
  unfold entered State.scheduleFrames
  rw [heq, seat_setSeat_other _ _ _ _ hj]
  simp [State.restOutputs, hj, enterState_seat_other]

theorem entered_keeps : (∀ c, (entered s k).channel c = s.channel c) ∧ (∀ m, (entered s k).slot m = s.slot m) ∧
    (entered s k).waitList = s.waitList := by
  unfold entered State.scheduleFrames State.restOutputs
  simp

theorem headNeed_congr (hq : (t.seat k).queue = (s.seat k).queue) (hc : ∀ c, t.channel c = s.channel c) :
    t.headNeed k = s.headNeed k := by
  unfold State.headNeed
  rw [hq]
  split
  · rfl
  · exact need_congr hc _

theorem covered_congr (hq : (t.seat k).queue = (s.seat k).queue) (hc : ∀ c, t.channel c = s.channel c)
    (hm : ∀ m, t.slot m = s.slot m) : t.covered k = s.covered k := by
  simp only [State.covered, headNeed_congr hq hc, freeChannelCount_congr hc, freeSlotCount_congr hm]

/-- The sequencer's part of the seat as it enters TESTING. -/
theorem entered_sequencer : ((entered s k).record k).state = .testing ∧
    ((entered s k).seat k).queue = (s.seat k).queue ∧ ((entered s k).seat k).running = (s.seat k).running ∧
    ((entered s k).seat k).results = (s.seat k).results ∧
    ((entered s k).seat k).outputs = (s.seat k).outputs.restAll ∧ (entered s k).now = s.now ∧
    (entered s k).covered k = s.covered k := by
  obtain ⟨fs, hseat, -⟩ := entered_seat (s := s) (k := k)
  obtain ⟨hchannel, hslot, -⟩ := entered_keeps (s := s) (k := k)
  have hqueue : ((entered s k).seat k).queue = (s.seat k).queue := by rw [hseat]
  rw [State.record, hseat]
  rw [hseat] at hqueue
  exact ⟨rfl, rfl, rfl, rfl, rfl, works_now works_entered, covered_congr (by rw [hseat]) hchannel hslot⟩

theorem entered_considerable (hq : (s.seat k).queue ≠ []) (hr : (s.seat k).running = none) (hw : k ∉ s.waitList) :
    (entered s k).considerable k = true := by
  obtain ⟨hstate, hqueue, hrun, -⟩ := entered_sequencer (s := s) (k := k)
  exact (considerable_iff _ k).mpr ⟨hstate, hrun.trans hr, by rw [entered_keeps.2.2]; exact hw, by rw [hqueue]; exact hq⟩

/-! ### The three conditions of a start (R29, R32, R33) -/

theorem covered_iff {st : Step} {rest : List Step} (hq : (s.seat k).queue = st :: rest) :
    s.covered k = true ↔ (s.need k st).1 ≤ s.freeChannelCount ∧ (s.need k st).2 ≤ s.freeSlotCount := by
  simp only [State.covered, State.headNeed, hq, Bool.and_eq_true, decide_eq_true_eq]

theorem referencesOk_iff (st : Step) : s.referencesOk st = true ↔
    (∀ e ∈ st.entries, (s.program e.program).program ≠ none) ∧ ∀ x ∈ st.measurements, (s.limit x.limit).limit ≠ none := by
  simp only [State.referencesOk, Bool.and_eq_true, List.all_eq_true, Option.isSome_iff_ne_none]

theorem wordGranted_iff (a : Nat) : s.wordGranted k a = true ↔
    ∃ p, (s.record k).owner = some p ∧ (s.grant (regionOf (BitVec.ofNat 14 a))).grants p = true := by
  unfold State.wordGranted
  split
  · next h => simp [h]
  · next p h => simp [h]

theorem promptGranted_iff (st : Step) : s.promptGranted k st = true ↔ ∀ pr, st.prompt = some pr → ∀ i, i < pr.width →
    ∃ p, (s.record k).owner = some p ∧
      (s.grant (regionOf (BitVec.ofNat 14 (pr.addr.toNat + i)))).grants p = true := by
  unfold State.promptGranted
  split
  · next h => simp [h]
  · next pr h =>
    simp only [List.all_eq_true, List.mem_range, wordGranted_iff, h, Option.some.injEq, forall_eq']

/-! ### A head step that ends at once (R32, R33, R41, R44) -/

/-- A step aborted at once: the entry of its end, with cause `c`. -/
structure AbortedEntry (e : ResultEntry) (st : Step) (c : Cause) (now : RackTime) : Prop where
  stepId : e.stepId = st.id
  outcome : e.outcome = .aborted
  deciding : e.deciding = .noPart
  cause : e.cause = some c
  start : e.start = now
  elapsed : e.elapsed = 0

/-- An aborted step whose policy or empty queue takes the seat out of TESTING: it goes to HOLD or to POWERED with its
queue empty, and the last stages have nothing left to do for it (R9, R41). -/
theorem settle_leaves {p : FailPolicy} (h : p = .holdSeat ∨ (s.seat k).queue = []) :
    let t := (s.settle k .aborted p).sequence [.consider k]
    (t.record k).state = (if p = .holdSeat then .hold else .powered) ∧ (t.seat k).queue = [] ∧
    (t.seat k).running = (s.seat k).running ∧ (t.seat k).results = (s.seat k).results ∧
    (t.seat k).outputs = (s.seat k).outputs.restAll ∧
    ∀ c, t.channel c = if (s.channel c).onSeat k = true then Channel.free else s.channel c := by
  by_cases hp : p = .holdSeat
  · obtain ⟨lrec, lqueue, lrun, lres, lout⟩ := leaveFor_seat (s := s.setQueue k []) (k := k) .hold
      (some (s.seat k).queue.length)
    have hstate := congrArg SeatRecord.state lrec
    simp only [settle_hold (s := s) (k := k) (o := .aborted) (by decide) hp, if_pos hp]
    rw [sequence_consider_skip (not_considerable_of_state (by rw [hstate]; exact fun e => nomatch e)), sequence_nil]
    exact ⟨hstate, lqueue.trans (by simp), lrun.trans (by simp), lres.trans (by simp), lout.trans (by simp),
      fun c => (leaveFor_channel _ _ c).trans (by simp)⟩
  · have hq : (s.seat k).queue = [] := h.resolve_left hp
    obtain ⟨lrec, lqueue, lrun, lres, lout⟩ := leaveFor_seat (s := s) (k := k) .powered none
    have hstate := congrArg SeatRecord.state lrec
    simp only [settle_powered (s := s) (k := k) (o := .aborted) (fun e => hp e.2) hq, if_neg hp]
    rw [sequence_consider_skip (not_considerable_of_state (by rw [hstate]; exact fun e => nomatch e)), sequence_nil]
    exact ⟨hstate, lqueue.trans hq, lrun, lres, lout, leaveFor_channel _ _⟩

/-- The state in which a head step ended at once: no running step, the entry appended, the rest queued. -/
structure EndedAtOnce (k : Fin 4) (st : Step) (rest : List Step) (c : Cause) (s t : State) : Prop where
  state : (t.record k).state = (s.record k).state
  queue : (t.seat k).queue = rest
  running : (t.seat k).running = none
  outputs : (t.seat k).outputs.restAll = (s.seat k).outputs.restAll
  entry : ∃ e, (t.seat k).results = (s.seat k).results.append e ∧ AbortedEntry e st c s.now

/-- The abort of a step that started in this moment. -/
theorem abortRunning_atOnce {st : Step} {rest : List Step} {u : State} {cs : List (Fin 8)} {ms : List (Fin 6)} (c : Cause)
    (hrun : (u.seat k).running = some { Running.fresh st s.now with channels := cs, slots := ms })
    (hrec : u.record k = s.record k) (hq : (u.seat k).queue = rest) (hres : (u.seat k).results = (s.seat k).results)
    (hout : (u.seat k).outputs.restAll = (s.seat k).outputs.restAll) (hnow : u.now = s.now) :
    EndedAtOnce k st rest c s (u.abortRunning k c) := by
  obtain ⟨astate, aqueue, arun, aout, e, ares, hid, ho, hd, hc, hstart, helapsed⟩ := abortRunning_seat (c := c) hrun
  refine ⟨by rw [astate, hrec], aqueue.trans hq, arun, aout.trans hout, e, by rw [ares, hres], ?_⟩
  exact ⟨hid, ho, hd, hc, hstart, by rw [helapsed, hnow]; exact BitVec.sub_self _⟩

/-- A head step with a reference not written, or a bitmap region not granted, ends at once; no channel and no slot
changes (R32, R33). -/
theorem startTaken_ends {st : Step} {rest : List Step} {c : Cause}
    (h : (s.referencesOk st = false ∧ c = .badReference) ∨
      (s.referencesOk st = true ∧ s.promptGranted k st = false ∧ c = .regionDenied)) :
    ∃ u, (s.takeHead k st rest).startTaken k st = (u, true) ∧ EndedAtOnce k st rest c s u ∧
      (∀ d, u.channel d = s.channel d) ∧ (∀ m, u.slot m = s.slot m) ∧ u.waitList = s.waitList ∧
      Works (fun _ => True) (s.takeHead k st rest) u := by
  obtain ⟨hrec, hqueue, hrun, hres, hout, hchannel, hslot, hwait, hnow, -⟩ := takeHead_keeps (s := s) k st rest
  refine ⟨_, startTaken_refused rest h,
    abortRunning_atOnce (cs := []) (ms := []) c hrun hrec hqueue hres (by rw [hout]) hnow, fun d => ?_, fun m => ?_,
    (abortRunning_waitList k c).trans hwait, works_abortRunning k c trivial⟩
  · rw [abortRunning_channel hrun]
    exact hchannel d
  · rw [abortRunning_slot hrun]
    exact hslot m

/-- A head step that ended at once: its fail policy follows, and the seat is considered again (R41, R194). -/
theorem consider_ends {st : Step} {rest : List Step} {u : State} (hcons : s.considerable k = true)
    (hw : s.waitList = []) (hc : s.covered k = true) (hq : (s.seat k).queue = st :: rest)
    (hu : (s.takeHead k st rest).startTaken k st = (u, true)) :
    s.sequence [.consider k] = (u.settle k .aborted st.policy).sequence [.consider k] := by
  have hstart : s.startHead k = (u.settle k .aborted st.policy, true) := by
    simp only [startHead_cons hq, hu, if_true]
  rw [sequence_consider_start hcons hw hc, hstart]
  rfl

end Steps
end Machine
end Sys2Proof
end

section
/-! The starts as a seat enters TESTING, put together (R28 to R35, R41, R44, R58, R71). -/

namespace Sys2Proof
namespace Machine
namespace Steps

variable {s t : State} {k : Fin 4}

/-! ### A step of one TIMER entry (R35, stage 5) -/

theorem firstTriggers_one {c : Fin 8} {n : Nat} (h : (s.channel c).trigger = some (.timer n)) :
    s.firstTriggers [c] = s.takeTimer c := by
  simp only [State.firstTriggers, h]
  split
  · rfl
  · next hno => rw [← Bool.eq_false_iff.mpr hno]

theorem moveGranted_iff {c : Fin 8} : s.moveGranted c k = true ↔ ∃ q, (s.record k).owner = some q ∧
    (s.grant (regionOf (s.channel c).address)).grants q = true := by
  unfold State.moveGranted
  split
  · next h => simp [h]
  · next q h => simp [h]

/-- A head step of one TIMER entry, its references written, its bitmap granted and its need covered. -/
structure TimerHead (s : State) (k : Fin 4) (st : Step) (rest : List Step) (x : ChannelEntry) (n : Nat) (p : Program) :
    Prop where
  queue : (s.seat k).queue = st :: rest
  covered : s.covered k = true
  references : s.referencesOk st = true
  prompt : s.promptGranted k st = true
  entries : st.entries = [x]
  trigger : x.trigger = .timer n
  program : (s.program x.program).program = some p

section TimerHead

variable {st : Step} {rest : List Step} {x : ChannelEntry} {n : Nat} {p : Program}

theorem works_bound (hq : (s.seat k).queue = st :: rest) :
    Works (fun _ => True) s ((s.takeHead k st rest).bindStep k st) :=
  (works_takeHead k st rest hq trivial).trans (works_bindStep k st trivial)

/-- The one channel the step binds is armed, its first trigger due now. -/
theorem TimerHead.bound (h : TimerHead s k st rest x n p) : ∃ c ms,
    StepBound k st s ((s.takeHead k st rest).bindStep k st) [c] ms ∧
    ((s.takeHead k st rest).bindStep k st).channel c = Channel.bound k 0 x p s.now ∧
    (((s.takeHead k st rest).bindStep k st).seat k).queue = rest ∧
    TimerArmed ((s.takeHead k st rest).bindStep k st) c k x.target n p := by
  obtain ⟨hchannels, hslots⟩ := (covered_iff h.queue).mp h.covered
  obtain ⟨⟨cs, ms, hb⟩, hqueue⟩ := takeHead_bound (k := k) rest h.references hchannels hslots
  obtain ⟨c, rfl⟩ : ∃ c, cs = [c] := List.length_eq_one_iff.mp (by rw [hb.length, h.entries]; rfl)
  obtain ⟨c', hc', hch⟩ := hb.entry 0 x p (by rw [h.entries]; rfl) h.program
  obtain rfl : c = c' := by simpa using hc'
  refine ⟨c, ms, hb, hch, hqueue, ⟨?_, ?_, ?_, ?_, ?_, ?_⟩⟩
  · rw [hch]; rfl
  · rw [hch]; rfl
  · rw [hch]; rfl
  · rw [hch, ← h.trigger]; rfl
  · rw [State.channelProgram, hch]
    exact ((works_bound h.queue).programs x.program).trans h.program
  · rw [hch]; rfl

/-- What the start of the step makes of its first trigger. -/
theorem TimerHead.startTaken (h : TimerHead s k st rest x n p) {c : Fin 8} {ms : List (Fin 6)}
    (hb : StepBound k st s ((s.takeHead k st rest).bindStep k st) [c] ms)
    (ha : TimerArmed ((s.takeHead k st rest).bindStep k st) c k x.target n p) :
    (s.takeHead k st rest).startTaken k st =
      (let v := (s.takeHead k st rest).bindStep k st
       if (v.takeTimer c).2 then ((v.takeTimer c).1.abortRunning k .regionDenied, true)
       else ((v.takeTimer c).1, false)) := by
  have hcs : State.stepChannels ((s.takeHead k st rest).bindStep k st) k = [c] := by
    simp [State.stepChannels, hb.running]
  simp only [startTaken_bound rest h.references h.prompt, hcs, firstTriggers_one ha.trigger]

/-- Whether the first move is granted is a matter of the state before the start. -/
theorem TimerHead.moveGranted_iff (h : TimerHead s k st rest x n p) {c : Fin 8}
    (hch : ((s.takeHead k st rest).bindStep k st).channel c = Channel.bound k 0 x p s.now) :
    State.moveGranted ((s.takeHead k st rest).bindStep k st) c k = true ↔
      ∃ q, (s.record k).owner = some q ∧ (s.grant (regionOf p.start)).grants q = true := by
  have w := works_bound (k := k) (st := st) (rest := rest) h.queue
  simp only [Steps.moveGranted_iff, hch, w.owner, works_grant w]
  rfl

/-- The first trigger and the first move at once, the next trigger one period on (R35, R71; log entry 10). -/
theorem TimerHead.runs (h : TimerHead s k st rest x n p) (hcons : s.considerable k = true) (hw : s.waitList = [])
    (hcount : 2 ≤ p.count) {q : Port} (hown : (s.record k).owner = some q)
    (hg : (s.grant (regionOf p.start)).grants q = true) :
    ∃ r c, ((s.sequence [.consider k]).seat k).running = some r ∧ r.step = st ∧ r.channels = [c] ∧
      (s.sequence [.consider k]).channel c =
        { timed (Channel.bound k 0 x p s.now) n p.block with
          remaining := p.count - 1, address := advance p p.start, made := 1, outstanding := min p.block p.count - 1 } ∧
      ((s.seat k).outputs = (s.seat k).outputs.restAll → ((s.sequence [.consider k]).seat k).outputs =
        (s.seat k).outputs.take x.target (Memory.read s.pattern p.start.toNat)) := by
  obtain ⟨c, ms, hb, hch, -, ha⟩ := h.bound
  obtain ⟨v, hv⟩ : ∃ v, v = (s.takeHead k st rest).bindStep k st := ⟨_, rfl⟩
  have hgranted : v.moveGranted c k = true := by
    rw [hv, h.moveGranted_iff hch]
    exact ⟨q, hown, hg⟩
  have htaken := h.startTaken hb ha
  have hpattern : v.pattern = s.pattern := by rw [hv]; exact (works_bound h.queue).pattern
  rw [← hv] at hb hch ha htaken
  have hstart : s.startHead k = ((v.setChannel c (timed (v.channel c) n p.block)).makeMove c k x.target p, false) := by
    simp only [startHead_cons h.queue, htaken, ha.takeTimer_granted hgranted, Bool.false_eq_true, if_false]
  obtain ⟨mchannel, mout, mrun⟩ := makeMove_counts (s := v.setChannel c (timed (v.channel c) n p.block)) (c := c)
    (k := k) (x := x.target) (p := p) (by rw [channel_setChannel_same, hch]; exact hcount)
  rw [sequence_consider_start hcons hw h.covered, hstart]
  simp only [afterStart, Bool.false_eq_true, if_false, List.nil_append, sequence_nil]
  refine ⟨_, c, mrun.trans (by simpa using hb.running), rfl, rfl, ?_, fun hrest => ?_⟩
  · rw [mchannel, channel_setChannel_same, hch]
    rfl
  · rw [mout, channel_setChannel_same, hch]
    simp only [setChannel_keeps, hb.atRest hrest, hpattern]
    rfl

/-- The region of the first move not granted: the step ends at once (R35, R44, R58). -/
theorem TimerHead.startTaken_refused (h : TimerHead s k st rest x n p)
    (hg : ∀ q, (s.record k).owner = some q → (s.grant (regionOf p.start)).grants q = false) :
    ∃ u, (s.takeHead k st rest).startTaken k st = (u, true) ∧ EndedAtOnce k st rest .regionDenied s u := by
  obtain ⟨c, ms, hb, hch, hqueue, ha⟩ := h.bound
  have hgranted : State.moveGranted ((s.takeHead k st rest).bindStep k st) c k = false := by
    rw [← Bool.not_eq_true, h.moveGranted_iff hch]
    rintro ⟨q, hq, hgrant⟩
    exact absurd hgrant (by simp [hg q hq])
  obtain ⟨ch, htake⟩ := ha.takeTimer_refused hgranted
  refine ⟨State.abortRunning (State.setChannel ((s.takeHead k st rest).bindStep k st) c ch) k .regionDenied,
    by simp only [h.startTaken hb ha, htake, if_true], ?_⟩
  have hnow := works_now (works_bound (k := k) (st := st) (rest := rest) h.queue)
  exact abortRunning_atOnce (cs := [c]) (ms := ms) .regionDenied (by simpa using hb.running)
    (by simpa [State.record] using hb.record) (by simpa using hqueue) (by simpa using hb.results)
    (by simpa using hb.outputs) (by simpa using hnow)

end TimerHead

/-! ### From the entry into TESTING to the start (R28) -/

theorem works_entered_true : Works (fun _ => True) s (entered s k) := works_entered.mono fun _ _ => trivial

theorem entered_need (st : Step) : (entered s k).need k st = s.need k st ∧
    (entered s k).freeChannelCount = s.freeChannelCount ∧ (entered s k).freeSlotCount = s.freeSlotCount := by
  obtain ⟨hchannel, hslot, -⟩ := entered_keeps (s := s) (k := k)
  exact ⟨need_congr hchannel st, freeChannelCount_congr hchannel, freeSlotCount_congr hslot⟩

/-- Behind other waiting seats, or with the need not covered, the seat waits (R28, R30). -/
theorem enterTesting_waits (hq : (s.seat k).queue ≠ []) (hr : (s.seat k).running = none) (hw : k ∉ s.waitList)
    (h : s.waitList ≠ [] ∨ s.covered k = false) : s.enterTesting k = (entered s k).joinWait k := by
  obtain ⟨-, -, -, -, -, -, hcov⟩ := entered_sequencer (s := s) (k := k)
  rw [enterTesting_eq, sequence_consider_wait (entered_considerable hq hr hw) (by rwa [entered_keeps.2.2, hcov])]
  exact sequence_nil

/-- The head step starts and runs on (R32 to R35). -/
theorem enterTesting_runs {st : Step} {rest : List Step} (hq : (s.seat k).queue = st :: rest)
    (hr : (s.seat k).running = none) (hw : s.waitList = []) (hc : (s.need k st).1 ≤ s.freeChannelCount)
    (hm : (s.need k st).2 ≤ s.freeSlotCount) (href : s.referencesOk st = true) (hp : s.promptGranted k st = true)
    (htimer : ∀ e ∈ st.entries, ∀ n, e.trigger ≠ .timer n) :
    ((s.enterTesting k).seat k).queue = rest ∧ ∃ cs ms, StepBound k st (entered s k) (s.enterTesting k) cs ms := by
  obtain ⟨hstate, hqueue, hrun, -⟩ := entered_sequencer (s := s) (k := k)
  obtain ⟨hneed, hchannels, hslots⟩ := entered_need (s := s) (k := k) st
  have hstart : Startable (entered s k) k st rest :=
    { queue := hqueue.trans hq
      references := (works_referencesOk works_entered_true st).trans href
      prompt := (works_promptGranted works_entered_true k st).trans hp
      channels := by rw [hneed, hchannels]; exact hc
      slots := by rw [hslots]; exact hm
      untimed := htimer }
  exact consider_starts hstart hstate (hrun.trans hr) (entered_keeps.2.2.trans hw)

/-- The head step ends at once, and its fail policy decides what follows (R41). -/
theorem enterTesting_ends {st : Step} {rest : List Step} {u : State} (hq : (s.seat k).queue = st :: rest)
    (hr : (s.seat k).running = none) (hw : s.waitList = []) (hc : s.covered k = true)
    (hu : ((entered s k).takeHead k st rest).startTaken k st = (u, true)) :
    s.enterTesting k = (u.settle k .aborted st.policy).sequence [.consider k] := by
  obtain ⟨-, hqueue, -, -, -, -, hcov⟩ := entered_sequencer (s := s) (k := k)
  rw [enterTesting_eq]
  exact consider_ends (entered_considerable (by simp [hq]) hr (by simp [hw])) (entered_keeps.2.2.trans hw)
    (hcov.trans hc) (hqueue.trans hq) hu

/-- Under HOLD_SEAT, or with nothing queued behind it, a head step that ends at once takes the seat out of TESTING. -/
theorem enterTesting_leaves {st : Step} {rest : List Step} {u : State} {c : Cause} (hq : (s.seat k).queue = st :: rest)
    (hr : (s.seat k).running = none) (hw : s.waitList = []) (hc : s.covered k = true)
    (hpol : st.policy = .holdSeat ∨ rest = [])
    (hu : ((entered s k).takeHead k st rest).startTaken k st = (u, true))
    (he : EndedAtOnce k st rest c (entered s k) u) :
    ((s.enterTesting k).record k).state = (if st.policy = .holdSeat then .hold else .powered) ∧
    ((s.enterTesting k).seat k).queue = [] ∧ ((s.enterTesting k).seat k).running = none ∧
    ((s.enterTesting k).seat k).outputs = (s.seat k).outputs.restAll ∧
    (∀ d, (s.enterTesting k).channel d = if (u.channel d).onSeat k = true then Channel.free else u.channel d) ∧
    ∃ e, ((s.enterTesting k).seat k).results = (s.seat k).results.append e ∧ AbortedEntry e st c s.now := by
  obtain ⟨-, -, -, hres, hout, hnow, -⟩ := entered_sequencer (s := s) (k := k)
  obtain ⟨lstate, lqueue, lrun, lres, lout, lchannel⟩ := settle_leaves (s := u) (k := k) (p := st.policy)
    (hpol.imp id fun h => he.queue.trans h)
  obtain ⟨e, heres, hentry⟩ := he.entry
  rw [enterTesting_ends hq hr hw hc hu]
  refine ⟨lstate, lqueue, lrun.trans he.running, ?_, lchannel, e, by rw [lres, heres, hres], hnow ▸ hentry⟩
  rw [lout, he.outputs, hout, restAll_restAll]

/-- The same refusal seen from the state the seat enters TESTING in. -/
theorem entered_refused {st : Step} {c : Cause} (h : (s.referencesOk st = false ∧ c = .badReference) ∨
      (s.referencesOk st = true ∧ s.promptGranted k st = false ∧ c = .regionDenied)) :
    ((entered s k).referencesOk st = false ∧ c = .badReference) ∨
      ((entered s k).referencesOk st = true ∧ (entered s k).promptGranted k st = false ∧ c = .regionDenied) := by
  rw [works_referencesOk works_entered_true, works_promptGranted works_entered_true]
  exact h

/-- A TIMER head step, in the state the seat enters TESTING in. -/
theorem entered_timerHead {st : Step} {rest : List Step} {x : ChannelEntry} {n : Nat} {p : Program}
    (h : TimerHead s k st rest x n p) : TimerHead (entered s k) k st rest x n p := by
  obtain ⟨-, hqueue, -, -, -, -, hcov⟩ := entered_sequencer (s := s) (k := k)
  exact
    { queue := hqueue.trans h.queue
      covered := hcov.trans h.covered
      references := (works_referencesOk works_entered_true st).trans h.references
      prompt := (works_promptGranted works_entered_true k st).trans h.prompt
      entries := h.entries
      trigger := h.trigger
      program := (works_entered_true.programs x.program).trans h.program }

/-- Under CONTINUE the next step behind one that ended at once starts in its place (R41, R194). -/
theorem enterTesting_continues {st next : Step} {rest : List Step} {c : Cause}
    (hq : (s.seat k).queue = st :: next :: rest) (hr : (s.seat k).running = none) (hw : s.waitList = [])
    (hc : s.covered k = true) (hpol : st.policy = .continue)
    (hbad : (s.referencesOk st = false ∧ c = .badReference) ∨
      (s.referencesOk st = true ∧ s.promptGranted k st = false ∧ c = .regionDenied))
    (hchannels : next.entries.length ≤ s.freeChannelCount) (hslots : next.measurements.length ≤ s.freeSlotCount)
    (href : s.referencesOk next = true) (hp : s.promptGranted k next = true)
    (htimer : ∀ e ∈ next.entries, ∀ n, e.trigger ≠ .timer n) :
    ∃ u cs ms, EndedAtOnce k st (next :: rest) c (entered s k) u ∧ ((s.enterTesting k).seat k).queue = rest ∧
      StepBound k next u (s.enterTesting k) cs ms ∧ u.now = s.now := by
  obtain ⟨hstate, -, -, -, -, hnow, -⟩ := entered_sequencer (s := s) (k := k)
  obtain ⟨echannel, eslot, ewait⟩ := entered_keeps (s := s) (k := k)
  obtain ⟨u, hu, he, uchannel, uslot, uwait, wu⟩ :=
    startTaken_ends (rest := next :: rest) (entered_refused (k := k) hbad)
  have hstart : Startable u k next rest :=
    { queue := he.queue
      references := by
        rw [works_referencesOk wu, takeHead_referencesOk, works_referencesOk works_entered_true]
        exact href
      prompt := by
        rw [works_promptGranted wu, takeHead_promptGranted, works_promptGranted works_entered_true]
        exact hp
      channels := by
        rw [freeChannelCount_congr fun d => (uchannel d).trans (echannel d)]
        exact (need_le k next).trans hchannels
      slots := by
        rw [freeSlotCount_congr fun m => (uslot m).trans (eslot m)]
        exact hslots
      untimed := htimer }
  have hset : u.settle k .aborted st.policy = u :=
    settle_stays (by simp [hpol]) (by rw [he.queue]; exact List.cons_ne_nil _ _)
  obtain ⟨hqueue, cs, ms, hb⟩ := consider_starts hstart (he.state.trans hstate) he.running
    (uwait.trans (ewait.trans hw))
  have ht := enterTesting_ends hq hr hw hc hu
  rw [hset] at ht
  rw [ht]
  obtain ⟨-, -, -, -, -, -, -, -, htake, -⟩ := takeHead_keeps (s := entered s k) k st (next :: rest)
  exact ⟨u, cs, ms, he, hqueue, hb, (works_now wu).trans (htake.trans hnow)⟩

/-! ### What a bound slot carries (R110) -/

/-- A slot just bound: what the measurement says, nothing sampled, SAMPLING when its gate opens with the bind. -/
theorem boundSlot_carries (k : Fin 4) (i : Fin 2) (x : Measurement) (start : RackTime) (window b : Nat) {y : MeasSlot}
    (h : Retimed (boundSlot k (i, x) start window b) y) :
    y.seat = some k ∧ y.measurement = some i ∧ y.input = some x.input ∧ y.limit = some x.limit ∧
    y.gate = some x.gate ∧ y.y = none ∧ y.run = 0 ∧ y.samples = 0 ∧ y.extreme = none ∧
    (x.gate = .start ∨ x.gate = .delay 0 → y.state = .sampling) ∧
    (∀ d, x.gate = .delay d → 1 ≤ d → y.state = .gated ∧
      y.gateTime = if d < window then some (msAfter start d) else none) ∧
    (∀ e, x.gate = .mark e → y.state = .gated ∧ y.gateTime = none) := by
  obtain ⟨n, d, rfl⟩ := h
  unfold boundSlot
  cases hg : x.gate with
  | start => simp [hg, Gate.opensAtBind, MeasSlot.bound, MeasSlot.free]
  | mark e => simp [hg, Gate.opensAtBind, MeasSlot.bound, MeasSlot.free, Gate.time]
  | delay m =>
    cases m with
    | zero => simp [hg, Gate.opensAtBind, MeasSlot.bound, MeasSlot.free]
    | succ m => simp [hg, Gate.opensAtBind, MeasSlot.bound, MeasSlot.free, Gate.time]

end Steps
end Machine
end Sys2Proof
end

section
/-! Entering TESTING, the obligation. -/

namespace Sys2Proof
namespace Machine
namespace Steps

variable {s t : State} {k : Fin 4}

theorem restAll_live (o : Outputs) : o.restAll.ao0.live = 0 ∧ o.restAll.ao1.live = 0 ∧ o.restAll.fo0.live = 0 ∧
    o.restAll.fo1.live = 0 ∧ o.restAll.dl.live = 0 := ⟨rfl, rfl, rfl, rfl, rfl⟩

theorem joinWait_seat (k j : Fin 4) : (s.joinWait k).seat j = s.seat j := rfl

/-- What the start of a step without a TIMER entry makes of the seat, its channels and its slots (R34, R35). -/
theorem StepBound.carries {st : Step} {cs : List (Fin 8)} {ms : List (Fin 6)} (h : StepBound k st s t cs ms)
    (htimer : ∀ e ∈ st.entries, ∀ n, e.trigger ≠ .timer n) :
    ∃ r, (t.seat k).running = some r ∧ r.step = st ∧ r.start = s.now ∧ r.deadline = msAfter s.now st.window ∧
      (∀ v ∈ r.measReports, v = none) ∧ r.expectReport = none ∧ r.promptReport = none ∧
      (∀ (i : Fin 3) (x : ChannelEntry) (p : Program), st.entries[i.val]? = some x →
        (s.program x.program).program = some p → ∃ c, r.channels[i.val]? = some c ∧
          t.channel c =
            { state := .armed, seat := some k, entry := some i, target := some x.target, trigger := some x.trigger,
              program := some x.program, address := p.start, remaining := p.count, shadow := none, kept := false,
              nextTimer := none, outstanding := 0, made := 0 }) ∧
      ∀ (i : Fin 2) (x : Measurement), st.measurements[i.val]? = some x →
        ∃ m b, r.slots[i.val]? = some m ∧ Retimed (boundSlot k (i, x) s.now st.window b) (t.slot m) := by
  refine ⟨_, h.running, rfl, rfl, rfl, ?_, rfl, rfl, fun i x p hx hp => ?_, h.measurement⟩
  · intro v hv
    obtain ⟨m, -, rfl⟩ := List.mem_map.mp hv
    rfl
  · obtain ⟨c, hc, hch⟩ := h.entry i x p hx hp
    refine ⟨c, hc, ?_⟩
    rw [hch]
    cases htrigger : x.trigger with
    | timer n => exact absurd htrigger (htimer x (List.mem_of_getElem? hx) n)
    | frame f => simp [Channel.bound, htrigger]
    | chain e => simp [Channel.bound, htrigger]

/-- Settles O23: the seat enters TESTING at rest with its schedules started, and its head step, considered last, waits,
runs on, or ends at once. -/
theorem enteringTesting : Obligations.EnteringTesting := by
  refine ⟨fun s k hq hr hw h => ?_, fun s k st rest hq => ⟨covered_iff hq, referencesOk_iff st, promptGranted_iff st⟩,
    fun s k st rest c hq hr hw hc hpol hbad => ?_,
    fun s k st rest hq hr hw hc hm href hp htimer => ?_,
    fun s k st rest x n p q hq hr hw hc href hp he hx hprog _ hcount hown hg => ?_,
    fun s k st rest x n p hq hr hw hc href hp he hx hprog _ _ hg hpol => ?_,
    fun s k st next rest c hq hr hw hc hpol hbad hchannels hslots href hp htimer => ?_⟩
  · obtain ⟨fs, hseat, hframes⟩ := entered_seat (s := s) (k := k)
    obtain ⟨hao0, hao1, hfo0, hfo1, hdl⟩ := restAll_live (s.seat k).outputs
    have hjoined : ∀ j, (s.enterTesting k).seat j = (entered s k).seat j := fun j => by
      rw [enterTesting_waits hq hr hw h, joinWait_seat]
    have hwait : (s.enterTesting k).waitList = s.waitList ++ [k] := by
      rw [enterTesting_waits hq hr hw h, State.joinWait, entered_keeps.2.2]
    have hschedule : ∀ f, (s.enterTesting k).frame k f = (s.frame k f).schedule s.clock := fun f => by
      rw [State.frame, hjoined k, hseat, ← hframes f]
    rw [State.record, hjoined k, hseat]
    exact ⟨rfl, rfl, rfl, hwait, rfl, hr, hao0, hao1, hfo0, hfo1, hdl, hschedule,
      fun j hj => (hjoined j).trans (entered_seat_other hj)⟩
  · obtain ⟨u, hu, hended, uchannel, -⟩ := startTaken_ends (rest := rest) (entered_refused (k := k) hbad)
    obtain ⟨hstate, hqueue, hrun, -, hchannel, e, hres, hentry⟩ := enterTesting_leaves hq hr hw hc hpol hu hended
    refine ⟨hstate, hqueue, hrun, fun j => ?_, e, hres, hentry.stepId, hentry.outcome, hentry.deciding, hentry.cause,
      hentry.start, hentry.elapsed⟩
    rw [hchannel j, uchannel j, entered_keeps.1 j]
  · obtain ⟨hstate, -, -, -, -, hnow, -⟩ := entered_sequencer (s := s) (k := k)
    obtain ⟨hqueue, cs, ms, hb⟩ := enterTesting_runs hq hr hw hc hm href hp htimer
    obtain ⟨r, hrun, hstep, hstart, hdeadline, hmeas, hexpect, hprompt, hentries, hmeasurements⟩ := hb.carries htimer
    refine ⟨by rw [hb.record]; exact hstate, hqueue, by rw [hb.waitList, entered_keeps.2.2]; exact hw, fun e he => ?_,
      hb.opened, r, hrun, hstep, hstart.trans hnow, by rw [hdeadline, hnow], hmeas, hexpect, hprompt,
      fun i x p _ hx hprog => ?_, fun i x _ hx => ?_⟩
    · rw [hb.watched e he]
      exact ⟨rfl, rfl, rfl, rfl⟩
    · exact hentries i x p hx ((works_entered_true.programs x.program).trans hprog)
    · obtain ⟨m, b, hslot, hretimed⟩ := hmeasurements i x hx
      rw [hnow] at hretimed
      exact ⟨m, _, hslot, rfl, boundSlot_carries k i x s.now st.window b hretimed⟩
  · obtain ⟨-, -, -, -, hout, hnow, -⟩ := entered_sequencer (s := s) (k := k)
    have hhead : TimerHead (entered s k) k st rest x n p := entered_timerHead ⟨hq, hc, href, hp, he, hx, hprog⟩
    obtain ⟨r, c, hrun, hstep, hcs, hch, houtputs⟩ := hhead.runs
      (entered_considerable (by simp [hq]) hr (by simp [hw])) (entered_keeps.2.2.trans hw) hcount
      ((works_entered_true.owner k).trans hown) (by rw [works_grant works_entered_true]; exact hg)
    rw [hout, (works_entered_true (s := s) (k := k)).pattern] at houtputs
    refine ⟨r, c, hrun, hstep, hcs, ?_⟩
    rw [enterTesting_eq, hch, hnow]
    refine ⟨rfl, rfl, ?_, rfl, rfl, rfl, houtputs rfl⟩
    simp [timed, Channel.bound, hx]
  · obtain ⟨u, hu, hended⟩ := (entered_timerHead ⟨hq, hc, href, hp, he, hx, hprog⟩).startTaken_refused fun q hq => by
      rw [works_grant works_entered_true]
      exact hg q ((works_entered_true.owner k).symm.trans hq)
    obtain ⟨hstate, hqueue, hrun, hout, hchannel, e, hres, hentry⟩ := enterTesting_leaves hq hr hw hc hpol hu hended
    refine ⟨hstate, hqueue, hrun, fun c => ?_, hout, e, hres, hentry.stepId, hentry.outcome, hentry.deciding,
      hentry.cause, hentry.start, hentry.elapsed⟩
    rw [hchannel c]
    split
    · rfl
    · next hoff => exact Bool.not_eq_true _ ▸ hoff
  · obtain ⟨hstate, -, -, hres, -, hnow, -⟩ := entered_sequencer (s := s) (k := k)
    obtain ⟨u, cs, ms, hended, hqueue, hb, hunow⟩ :=
      enterTesting_continues hq hr hw hc hpol hbad hchannels hslots href hp htimer
    obtain ⟨e, heres, hentry⟩ := hended.entry
    rw [hnow] at hentry
    refine ⟨by rw [hb.record, hended.state]; exact hstate, hqueue, ⟨_, hb.running, rfl, hunow⟩, e,
      by rw [hb.results, heres, hres], hentry.stepId, hentry.outcome, hentry.deciding, hentry.cause, hentry.start,
      hentry.elapsed⟩

end Steps
end Machine
end Sys2Proof
end

section
/-! The grant table: what TAKE_REGION, SHARE_REGION and DROP_REGION make of an entry (R51 to R54). -/

namespace Sys2Proof
namespace Machine
namespace Steps

variable {s : State} {p : Port} {r : Fin 32}

/-! ### Grants (R51) -/

theorem grants_eq_false_iff (g : Grant) (p : Port) :
    g.grants p = false ↔ g = .none ∨ g = Grant.of (otherPort p) := by
  cases g <;> cases p <;> decide

@[simp] theorem grants_of (p : Port) : (Grant.of p).grants p = true := by cases p <;> rfl

@[simp] theorem grants_both (p : Port) : Grant.both.grants p = true := rfl

@[simp] theorem drop_of (p : Port) : (Grant.of p).drop p = .none := by cases p <;> rfl

@[simp] theorem drop_both (p : Port) : Grant.both.drop p = Grant.of (otherPort p) := rfl

/-! ### The three commands (R52 to R54) -/

theorem exec_takeRegion (h : s.takes p) : exec (.takeRegion p [byteOf r.val]) s =
    if s.grant r = .none then answered (s.setGrant r (Grant.of p)) p .ok []
    else if s.grant r = Grant.of (otherPort p) then answered s p .inUse [] else answered s p .ok [] := by
  change execTakeRegion p _ s = _
  unfold execTakeRegion
  rw [indexArg_byteOf (by decide), withArg_some]
  split
  · next hg => rw [if_pos hg]; exact command_taken_pair h _ _ _
  · next hnone =>
    rw [if_neg hnone]
    cases hgr : (s.grant r).grants p with
    | false =>
      rw [if_pos (((grants_eq_false_iff _ p).mp hgr).resolve_left hnone), require_false]
      exact command_taken_pair h _ _ _
    | true =>
      have hne : s.grant r ≠ Grant.of (otherPort p) := fun he =>
        Bool.noConfusion (hgr.symm.trans ((grants_eq_false_iff _ p).mpr (Or.inr he)))
      rw [if_neg hne, require_true]
      exact command_taken_pair h _ _ _

theorem exec_shareRegion (h : s.takes p) : exec (.shareRegion p [byteOf r.val]) s =
    if s.grant r = Grant.of p then answered (s.setGrant r .both) p .ok [] else answered s p .wrongState [] := by
  change execShareRegion p _ s = _
  unfold execShareRegion
  rw [indexArg_byteOf (by decide), withArg_some]
  by_cases hg : s.grant r = Grant.of p
  · rw [if_pos hg, decide_eq_true hg, require_true]
    exact command_taken_pair h _ _ _
  · rw [if_neg hg, decide_eq_false hg, require_false]
    exact command_taken_pair h _ _ _

theorem exec_dropRegion (h : s.takes p) : exec (.dropRegion p [byteOf r.val]) s =
    if s.grant r = Grant.of p then answered (s.setGrant r .none) p .ok []
    else if s.grant r = .both then answered (s.setGrant r (Grant.of (otherPort p))) p .ok []
    else answered s p .notOwner [] := by
  change execDropRegion p _ s = _
  unfold execDropRegion
  rw [indexArg_byteOf (by decide), withArg_some]
  by_cases hof : s.grant r = Grant.of p
  · rw [if_pos hof, hof, grants_of, require_true, drop_of]
    exact command_taken_pair h _ _ _
  · by_cases hboth : s.grant r = .both
    · rw [if_neg hof, if_pos hboth, hboth, grants_both, require_true, drop_both]
      exact command_taken_pair h _ _ _
    · have hgr : (s.grant r).grants p = false := by
        revert hof hboth
        cases s.grant r <;> cases p <;> decide
      rw [if_neg hof, if_neg hboth, hgr, require_false]
      exact command_taken_pair h _ _ _

/-- Settles O37, table by table. -/
theorem regionGrantCommands : Obligations.RegionGrantCommands :=
  fun _ _ _ h => ⟨exec_takeRegion h, exec_shareRegion h, exec_dropRegion h⟩

end Steps
end Machine
end Sys2Proof
end

section
/-! A refused move of a seat's kept channel (R58, R69, R74, R83). -/

namespace Sys2Proof
namespace Machine
namespace Steps

variable {s : State} {k : Fin 4} {c : Fin 8}

/-! ### Notices (R184) -/

/-- A seat notice goes to the owner, or to both ports when the seat is unowned. -/
theorem postSeat_port (n : Notice) (q : Port) : (s.postSeat k n).port q =
    if (s.record k).owner = some (otherPort q) then s.port q else (s.port q).post n := by
  unfold State.postSeat State.postBoth State.post
  cases (s.record k).owner with
  | none => cases q <;> simp
  | some p => cases p <;> cases q <;> simp [otherPort]

/-- Posting a notice writes the port records and nothing else. -/
theorem postSeat_eq (n : Notice) : ∃ a b, s.postSeat k n = { s with portA := a, portB := b } := by
  unfold State.postSeat State.postBoth State.post
  cases (s.record k).owner with
  | none => exact ⟨_, _, rfl⟩
  | some p => cases p <;> exact ⟨_, _, rfl⟩

/-! ### A freed channel (R69) -/

/-- Everything a free does to a channel that runs a program and drives a target. -/
theorem freeChannel_eq {tg : Target} {i : Fin 48} (hseat : (s.channel c).seat = some k)
    (htarget : (s.channel c).target = some tg) (hprogram : (s.channel c).program = some i) :
    s.freeChannel c =
      ((s.unuseProgram i).setOutputs k ((s.seat k).outputs.rest tg)).setChannel c Channel.free := by
  simp only [State.freeChannel, State.restTarget, State.unuseBy, hseat, htarget, hprogram]
  rfl

theorem unuseProgram_program (i j : Fin 48) : (s.unuseProgram i).program j =
    if i = j then { s.program j with uses := (s.program j).uses - 1 } else s.program j := by
  unfold State.unuseProgram
  by_cases h : i = j
  · subst h; simp
  · simp [h, Ne.symm h]

/-- A free writes the whole record of its channel, so an earlier change of the record leaves no trace. -/
theorem setChannel_freeChannel {x : Channel} (hseat : x.seat = (s.channel c).seat)
    (htarget : x.target = (s.channel c).target) (hprogram : x.program = (s.channel c).program) :
    (s.setChannel c x).freeChannel c = s.freeChannel c := by
  unfold State.freeChannel
  rw [channel_setChannel_same]
  unfold State.restTarget State.unuseBy
  rw [hseat, htarget, hprogram]
  split <;> split <;> simp [State.setChannel, State.unuseProgram, State.setProgram, State.program, State.setOutputs,
    State.setSeat, State.seat]

theorem channelProgram_program {p : Program} (h : s.channelProgram c = some p) :
    ∃ i, (s.channel c).program = some i := by
  unfold State.channelProgram at h
  split at h
  · cases h
  · next i hi => exact ⟨i, hi⟩

/-! ### The refusal (R74, R83) -/

theorem arbitrate_idle (h : s.waitList = []) : s.arbitrate = s := by
  unfold State.arbitrate
  rw [sequence_arbiter_idle h, sequence_nil]

/-- The notice of a refused move of the kept channel `c` of seat `k` (R83). -/
def refusedKeptNotice (s : State) (c : Fin 8) (k : Fin 4) : Notice where
  kind := .fault
  level := 0
  seat := some k
  stepId := none
  code := 7
  count := some c.val
  time := s.now

/-- A refused move of a kept channel of seat `k`: the channel is freed and one notice is posted. -/
theorem exec_channelMove_refusedKept {tg : Target} {p : Program} (hout : (s.channel c).outstanding ≠ 0)
    (hstate : (s.channel c).state = .armed ∨ (s.channel c).state = .running) (hseat : (s.channel c).seat = some k)
    (htarget : (s.channel c).target = some tg) (hprogram : s.channelProgram c = some p)
    (hdenied : s.moveGranted c k = false) (hkept : (s.channel c).kept = true) (hwait : s.waitList = []) :
    exec (.channelMove c) s = .next ((s.freeChannel c).postSeat k (refusedKeptNotice s c k)) := by
  have hready : s.moveReady c = true := by simp [State.moveReady, hout, hstate]
  have hbound : (s.channel c).state ≠ .free := by rcases hstate with h | h <;> simp [h]
  have hmove : s.moveOnce c = (s.refuseMove c, true) := by
    rw [moveOnce_eq hbound hseat htarget hprogram, hdenied]
    rfl
  have hfreed : (s.refuseMove c).freeChannel c = s.freeChannel c := setChannel_freeChannel rfl rfl rfl
  have hnow : (s.freeChannel c).now = s.now := works_now (works_freeChannel (T := fun _ => False) c)
  have hidle : ∀ n, ((s.freeChannel c).postSeat k n).waitList = [] := fun n => by simp [hwait]
  change whenDue s (s.moveReady c) (takeRefusal (s.moveOnce c) c) = _
  rw [hready, whenDue_true, hmove]
  have hrefused : (s.refuseMove c).channel c = { s.channel c with outstanding := 0 } := channel_setChannel_same _ _ _
  simp only [takeRefusal, if_true, State.handleRefusal, hrefused, hseat, hkept, hfreed, arbitrate_idle (hidle _),
    State.notice, hnow]
  rfl

/-- Settles O42: the free writes the channel, its program and the output, the notice writes the ports. -/
theorem refusedMoveOfKeptChannel : Obligations.RefusedMoveOfKeptChannel := by
  intro s c k tg p hout hstate hseat htarget hprogram hdenied hkept hwait
  obtain ⟨i, hi⟩ := channelProgram_program hprogram
  have hfree := freeChannel_eq hseat htarget hi
  refine ⟨_, exec_channelMove_refusedKept hout hstate hseat htarget hprogram hdenied hkept hwait, ?_⟩
  obtain ⟨hseats, -, -, hchannel, -⟩ := postSeat_keeps (s := s.freeChannel c) k (refusedKeptNotice s c k)
  obtain ⟨a, b, hposted⟩ := postSeat_eq (s := s.freeChannel c) (k := k) (refusedKeptNotice s c k)
  have hsame : (s.freeChannel c).seat k = { s.seat k with outputs := (s.seat k).outputs.rest tg } := by
    rw [hfree]; simp [State.unuseProgram]
  have hother : ∀ j, j ≠ k → (s.freeChannel c).seat j = s.seat j := fun j hj => by
    rw [hfree]; simp [State.unuseProgram, hj]
  refine ⟨?_, fun d hd => ?_, ?_, ?_, fun j => ?_, ?_, fun i' => ?_, ?_, fun q => ?_⟩
  · rw [hchannel, freeChannel_channel, if_pos rfl]
  · rw [hchannel, freeChannel_channel, if_neg hd]
  · rw [hseats, hsame]
  · exact (works_postSeat (T := fun _ => False) k _).pattern.trans (works_freeChannel (T := fun _ => False) c).pattern
  · obtain ⟨hr, -, hrun, hres, -⟩ := untouched (works_freeChannel (s := s) c) j
    rw [State.record, hseats]
    exact ⟨hr, hrun, hres, hother j⟩
  · rw [hseats, hsame]
  · rw [hposted, hfree, hi]
    exact (unuseProgram_program i i').trans (by simp)
  · rw [hposted, hfree]
    rfl
  · rw [postSeat_port, hfree]
    simp [State.unuseProgram, refusedKeptNotice]

end Steps
end Machine
end Sys2Proof
end

section
/-! The words of pattern memory on the link: WRITE_PATTERN and READ_PATTERN (R50, R55, R56). -/

namespace Sys2Proof
namespace Machine
namespace Steps

variable {s : State} {p : Port} {lo hi count : Byte} {bytes : List Byte}

/-! ### Words and spans on the link (R55, R180) -/

/-- Words come in pairs of bytes. -/
theorem wordsArg_length {bytes : List Byte} {ws : List Word} (h : wordsArg bytes = some ws) :
    bytes.length = 2 * ws.length := by
  induction bytes using wordsArg.induct generalizing ws with
  | case1 => cases h; rfl
  | case2 lo hi rest vs hvs ih =>
    simp only [wordsArg, hvs, Option.some.injEq] at h
    subst h
    simp only [List.length_cons, ih hvs]
    omega
  | case3 lo hi rest hnone => simp [wordsArg, hnone] at h
  | case4 bytes hnil hcons =>
    match bytes with
    | [] => exact absurd rfl hnil
    | [_] => cases h
    | lo :: hi :: rest => exact absurd rfl (hcons lo hi rest)

/-- Pairs of bytes are read as words, each low byte first. -/
theorem wordsArg_pairs {n : Nat} (h : bytes.length = 2 * n) : ∃ ws, wordsArg bytes = some ws ∧ ws.length = n ∧
    ∀ i, i < n → ws[i]? = some (word16 (bytes.getD (2 * i) 0) (bytes.getD (2 * i + 1) 0)) := by
  induction n generalizing bytes with
  | zero =>
    obtain rfl : bytes = [] := List.length_eq_zero_iff.mp h
    exact ⟨[], rfl, rfl, fun i hi => absurd hi (Nat.not_lt_zero i)⟩
  | succ n ih =>
    match bytes, h with
    | b0 :: b1 :: rest, h =>
      obtain ⟨ws, hws, hlen, hget⟩ := ih (bytes := rest) (by simp only [List.length_cons] at h; omega)
      refine ⟨word16 b0 b1 :: ws, by simp only [wordsArg, hws], by rw [List.length_cons, hlen], fun i hi => ?_⟩
      cases i with
      | zero => rfl
      | succ i => simpa [Nat.mul_succ] using hget i (by omega)

theorem addrArg_inside (h : (word16 lo hi).toNat < 16384) :
    ∃ a, addrArg lo hi = some a ∧ a.toNat = (word16 lo hi).toNat := by
  refine ⟨(word16 lo hi).setWidth 14, if_pos h, ?_⟩
  rw [BitVec.toNat_setWidth]
  exact Nat.mod_eq_of_lt h

theorem addrArg_outside (h : 16384 ≤ (word16 lo hi).toNat) : addrArg lo hi = none := if_neg (Nat.not_lt.mpr h)

/-- A span of 1 to 64 words inside the memory. -/
theorem spanArg_inside (h1 : 1 ≤ count.toNat) (h64 : count.toNat ≤ 64)
    (hend : (word16 lo hi).toNat + count.toNat ≤ 16384) :
    ∃ a, spanArg lo hi count = some (a, count.toNat) ∧ a.toNat = (word16 lo hi).toNat := by
  obtain ⟨a, ha, hval⟩ := addrArg_inside (lo := lo) (hi := hi) (by omega)
  refine ⟨a, ?_, hval⟩
  unfold spanArg
  rw [ha]
  exact if_pos (by omega)

/-- A span that starts or ends outside the memory, or whose count is in error. -/
theorem spanArg_outside (h : 16384 ≤ (word16 lo hi).toNat ∨ count.toNat = 0 ∨ 64 < count.toNat ∨
    16384 < (word16 lo hi).toNat + count.toNat) : spanArg lo hi count = none := by
  unfold spanArg
  rcases Nat.lt_or_ge (word16 lo hi).toNat 16384 with hin | hout
  · obtain ⟨a, ha, hval⟩ := addrArg_inside hin
    rw [ha]
    exact if_neg (by omega)
  · rw [addrArg_outside hout]

/-- A span that is read carries its count, 1 to 64. -/
theorem spanArg_count {a : PatternAddr} {n : Nat} (h : spanArg lo hi count = some (a, n)) :
    n = count.toNat ∧ 1 ≤ n ∧ n ≤ 64 := by
  unfold spanArg at h
  split at h
  case h_2 => cases h
  split at h
  case isFalse => cases h
  next hrange =>
    cases h
    exact ⟨rfl, hrange.1, hrange.2.1⟩

/-- A written span carries two bytes for each word its count promises. -/
theorem writePatternArg_length {a : PatternAddr} {ws : List Word}
    (h : writePatternArg (lo :: hi :: count :: bytes) = some (a, ws)) :
    bytes.length = 2 * count.toNat ∧ 1 ≤ count.toNat ∧ count.toNat ≤ 64 := by
  simp only [writePatternArg] at h
  split at h
  case h_2 => cases h
  next hspan hws =>
    split at h
    case isFalse => cases h
    next hlen =>
      obtain ⟨hn, h1, h64⟩ := spanArg_count hspan
      have hbytes := wordsArg_length hws
      omega

/-! ### Grants of a span (R50, R55) -/

theorem regionOf_ofNat (n : Nat) : regionOf (BitVec.ofNat 14 n) = ⟨n / 512 % 32, by omega⟩ := by
  apply Fin.ext
  simp only [regionOf, BitVec.toNat_ofNat]
  omega

theorem spanGranted_iff (a n : Nat) : s.spanGranted p a n = true ↔
    ∀ i, i < n → (s.grant ⟨(a + i) / 512 % 32, by omega⟩).grants p = true := by
  simp only [State.spanGranted, List.all_eq_true, List.mem_range, regionOf_ofNat]

/-! ### READ_PATTERN (R56) -/

theorem readSpan_eq_map {w : Nat} (m : Memory w) (a n : Nat) :
    Memory.readSpan m a n = (List.range n).map (fun i => Memory.read m (a + i)) :=
  List.ext_getElem (by simp) fun i hl hr => by simp [Memory.getElem_readSpan]

theorem exec_readPattern {a : PatternAddr} {n : Nat} (h : s.takes p) (harg : spanArg lo hi count = some (a, n)) :
    exec (.readPattern p [lo, hi, count]) s = answered s p .ok
      ((List.range n).flatMap fun i => bytes16 (Memory.read s.pattern (a.toNat + i)).toNat) := by
  change command p s (withArg s (spanArg lo hi count) _) = _
  rw [harg, withArg_some, readSpan_eq_map, List.flatMap_map]
  exact command_taken_pair h _ _ _

theorem exec_readPattern_badParam (h : s.takes p) (harg : spanArg lo hi count = none) :
    exec (.readPattern p [lo, hi, count]) s = answered s p .badParam [] := by
  change command p s (withArg s (spanArg lo hi count) _) = _
  rw [harg, withArg_none]
  exact command_taken_pair h _ _ _

/-! ### WRITE_PATTERN (R55) -/

theorem exec_writePattern {ps : List Byte} {a : PatternAddr} {ws : List Word} (h : s.takes p)
    (harg : writePatternArg ps = some (a, ws)) : exec (.writePattern p ps) s =
      if s.spanGranted p a.toNat ws.length then
        answered { s with pattern := Memory.writeSpan s.pattern a.toNat ws } p .ok []
      else answered s p .denied [] := by
  change command p s (withArg s (writePatternArg ps) _) = _
  rw [harg, withArg_some]
  split
  · next hg => rw [hg, require_true]; exact command_taken_pair h _ _ _
  · next hg => rw [Bool.eq_false_of_not_eq_true hg, require_false]; exact command_taken_pair h _ _ _

theorem exec_writePattern_badParam {ps : List Byte} (h : s.takes p) (harg : writePatternArg ps = none) :
    exec (.writePattern p ps) s = answered s p .badParam [] := by
  change command p s (withArg s (writePatternArg ps) _) = _
  rw [harg, withArg_none]
  exact command_taken_pair h _ _ _

/-- What a span written reads as: the words inside, the old ones outside. -/
theorem read_writeSpan_words {m : Memory 16} (hm : Memory.wf m) (a : Nat) (ws : List Word) :
    (∀ (i : Nat) (w : Word), ws[i]? = some w → Memory.read (Memory.writeSpan m a ws) (a + i) = w) ∧
    (∀ b, b < a ∨ a + ws.length ≤ b → Memory.read (Memory.writeSpan m a ws) b = Memory.read m b) := by
  refine ⟨fun i w hw => ?_, fun b hb => ?_⟩
  · obtain ⟨hi, rfl⟩ := List.getElem?_eq_some_iff.mp hw
    rw [Memory.read_writeSpan hm, dif_pos ⟨by omega, by omega⟩]
    simp only [Nat.add_sub_cancel_left]
  · rw [Memory.read_writeSpan hm, dif_neg (by omega)]

/-- Settles O38: the span check, the byte count and the grants, in the order of R55 and R56. -/
theorem patternWriteAndRead : Obligations.PatternWriteAndRead := by
  intro p s lo hi count bytes h hwf
  refine ⟨fun hbad => ?_, fun hlen => ?_, fun h1 h64 hend => ?_⟩
  · have hspan := spanArg_outside hbad
    refine ⟨exec_writePattern_badParam h ?_, exec_readPattern_badParam h hspan⟩
    simp only [List.cons_append, List.nil_append, writePatternArg, hspan]
  · refine exec_writePattern_badParam h (Option.eq_none_iff_forall_ne_some.mpr fun ⟨a, ws⟩ harg => ?_)
    exact hlen (writePatternArg_length harg).1
  · obtain ⟨a, hspan, ha⟩ := spanArg_inside h1 h64 hend
    refine ⟨ha ▸ exec_readPattern h hspan, fun hlen => ?_⟩
    obtain ⟨ws, hws, hwl, hget⟩ := wordsArg_pairs hlen
    have harg : writePatternArg ([lo, hi, count] ++ bytes) = some (a, ws) := by
      simp only [List.cons_append, List.nil_append, writePatternArg, hspan, hws, if_pos hwl]
    have hexec := exec_writePattern h harg
    rw [ha, hwl] at hexec
    refine ⟨fun ⟨i, hi, hdenied⟩ => ?_, fun hgranted => ?_⟩
    · rw [hexec, if_neg]
      intro hall
      exact Bool.noConfusion (hdenied.symm.trans (spanGranted_iff _ _ |>.mp hall i hi))
    · obtain ⟨hinside, houtside⟩ := read_writeSpan_words hwf (word16 lo hi).toNat ws
      refine ⟨_, ?_, fun i hi => hinside i _ (hget i hi), fun b hb => houtside b (hwl ▸ hb)⟩
      rw [hexec, if_pos ((spanGranted_iff _ _).mpr hgranted)]

end Steps
end Machine
end Sys2Proof
end

section
/-! Parameters that no command reads: lengths and indexes out of range (R177, R178, stage 3). -/

namespace Sys2Proof
namespace Machine
namespace Steps

variable {s : State} {p : Port} {ps : List Byte}

/-! ### The operand check of every link command (R178) -/

/-- Whether the parameters of a link command are read as its operands: the length is right and every field is in
range. -/
def operandsRead : Instr → Bool
  | .readNotice _ ps | .portReset _ ps | .readRegions _ ps | .rmwBegin _ ps | .rmwEnd _ ps | .panelOn _ ps
  | .panelOff _ ps | .allPointsNormal _ ps | .allPointsForced _ ps | .readPanelState _ ps => (noArg ps).isSome
  | .claimSeat _ ps | .releaseSeat _ ps | .clamp _ ps | .unclamp _ ps | .powerOn _ ps | .powerOff _ ps | .start _ ps
  | .stopSeat _ ps | .resume _ ps | .clearFault _ ps | .readSeat _ ps | .flushQueue _ ps | .readStepState _ ps
  | .readSnapshot _ ps | .readOutputs _ ps | .readCapture _ ps | .captureStatus _ ps | .flushCapture _ ps
  | .readSummary _ ps | .clearResults _ ps => (indexArg 4 ps).isSome
  | .takeRegion _ ps | .shareRegion _ ps | .dropRegion _ ps | .storeCalibration _ ps
  | .readCalibration _ ps => (indexArg 32 ps).isSome
  | .setThreshold _ ps => (indexArg 16 ps).isSome
  | .eraseProgram _ ps | .readProgram _ ps => (indexArg 48 ps).isSome
  | .eraseLimit _ ps | .readLimit _ ps => (indexArg 256 ps).isSome
  | .readChannel _ ps => (indexArg 8 ps).isSome
  | .readSlot _ ps => (indexArg 6 ps).isSome
  | .setNoticeLevel _ ps => (indexPairArg 7 16 ps).isSome
  | .readFrameSlot _ ps => (indexPairArg 4 8 ps).isSome
  | .readResult _ ps => (indexPairArg 4 64 ps).isSome
  | .setCursor _ ps => (indexPairArg 8 128 ps).isSome
  | .queueStep _ ps => (queueStepArg ps).isSome
  | .abortStep _ ps => (abortStepArg ps).isSome
  | .writePattern _ ps => (writePatternArg ps).isSome
  | .readPattern _ ps => (readPatternArg ps).isSome
  | .writeProgram _ ps => (writeProgramArg ps).isSome
  | .setShadow _ ps => (setShadowArg ps).isSome
  | .setOutput _ ps => (setOutputArg ps).isSome
  | .setFrameSlot _ ps => (setFrameSlotArg ps).isSome
  | .setCalibration _ ps => (setCalibrationArg ps).isSome
  | .writeLimit _ ps => (writeLimitArg ps).isSome
  | .setFilter _ ps => (setFilterArg ps).isSome
  | .setAcceptLong _ ps => (setAcceptLongArg ps).isSome
  | .writePanel _ ps => (writePanelArg ps).isSome
  | .readPanel _ ps => (readPanelArg ps).isSome
  | .setLamp _ ps => (setLampArg ps).isSome
  | .setSerial _ ps => (setSerialArg ps).isSome
  | _ => true

theorem command_misread {α : Type} {arg : Option α} (h : s.takes p) (harg : arg.isSome = false)
    (body : α → State × Answer) : command p s (withArg s arg body) = answered s p .badParam [] := by
  rw [Option.isSome_eq_false_iff, Option.isNone_iff_eq_none] at harg
  rw [harg, withArg_none]
  exact command_taken_pair h _ _ _

/-- Every link command but STATUS reads its operands before anything else of its own, and answers BAD_PARAM when it
cannot. -/
theorem exec_misread {c : Instr} (hc : callOf c = some (p, ps)) (h : s.takes p) (hread : operandsRead c = false) :
    exec c s = answered s p .badParam [] := by
  cases c <;> cases hc
  all_goals exact command_misread h hread _

/-! ### What the operands that are read look like (R180) -/

/-- The first bytes are indexes, each below its number of values. -/
def Leads : List Nat → List Byte → Prop
  | n :: ns, b :: bs => b.toNat < n ∧ Leads ns bs
  | _, _ => True

theorem Leads.getElem {ns : List Nat} {bs : List Byte} (h : Leads ns bs) {i n : Nat} {b : Byte}
    (hb : bs[i]? = some b) (hn : ns[i]? = some n) : b.toNat < n := by
  induction i generalizing ns bs with
  | zero =>
    match ns, bs with
    | m :: ns, c :: bs =>
      cases hb
      cases hn
      exact h.1
  | succ i ih =>
    match ns, bs with
    | m :: ns, c :: bs => exact ih h.2 hb hn

theorem finArg_lt {n : Nat} {b : Byte} {k : Fin n} (h : finArg n b = some k) : b.toNat < n := by
  unfold finArg at h
  split at h
  · assumption
  · cases h

theorem noArg_length (h : (noArg ps).isSome = true) : ps.length = 0 := by
  cases ps with
  | nil => rfl
  | cons => cases h

theorem indexArg_length {n : Nat} (h : (indexArg n ps).isSome = true) : ps.length = 1 := by
  unfold indexArg at h
  split at h
  · rfl
  · cases h

theorem indexPairArg_shape {n m : Nat} (h : (indexPairArg n m ps).isSome = true) :
    ps.length = 2 ∧ Leads [n, m] ps := by
  unfold indexPairArg at h
  split at h
  case h_2 => cases h
  split at h
  case h_2 => cases h
  next hn hm => exact ⟨rfl, finArg_lt hn, finArg_lt hm, trivial⟩

theorem abortStepArg_shape (h : (abortStepArg ps).isSome = true) : ps.length = 3 ∧ Leads [4] ps := by
  unfold abortStepArg at h
  split at h
  case h_2 => cases h
  split at h
  case h_2 => cases h
  next hk => exact ⟨rfl, finArg_lt hk, trivial⟩

theorem setShadowArg_shape (h : (setShadowArg ps).isSome = true) : ps.length = 5 ∧ Leads [4, 8] ps := by
  unfold setShadowArg at h
  split at h
  case h_2 => cases h
  split at h
  case h_1 hk hc _ => exact ⟨rfl, finArg_lt hk, finArg_lt hc, trivial⟩
  case h_2 hk hc _ => exact ⟨rfl, finArg_lt hk, finArg_lt hc, trivial⟩
  case h_3 => cases h

theorem setOutputArg_shape (h : (setOutputArg ps).isSome = true) : ps.length = 4 ∧ Leads [4] ps := by
  unfold setOutputArg at h
  split at h
  case h_2 => cases h
  split at h
  case h_2 => cases h
  next hk _ => exact ⟨rfl, finArg_lt hk, trivial⟩

theorem vec8Arg_length {bs : List Byte} {v : Vector Byte 8} (h : vec8Arg bs = some v) : bs.length = 8 := by
  unfold vec8Arg at h
  split at h
  · rfl
  · cases h

theorem setFrameSlotArg_shape (h : (setFrameSlotArg ps).isSome = true) : ps.length = 16 ∧ Leads [4, 8] ps := by
  unfold setFrameSlotArg at h
  split at h
  case h_2 => cases h
  split at h
  case h_2 => cases h
  next hk hf _ _ hpayload =>
    exact ⟨by simp only [List.length_cons, vec8Arg_length hpayload], finArg_lt hk, finArg_lt hf, trivial⟩

theorem setCalibrationArg_shape (h : (setCalibrationArg ps).isSome = true) : ps.length = 5 ∧ Leads [32] ps := by
  unfold setCalibrationArg at h
  split at h
  case h_2 => cases h
  split at h
  case h_2 => cases h
  next he => exact ⟨rfl, finArg_lt he, trivial⟩

theorem setFilterArg_shape (h : (setFilterArg ps).isSome = true) : ps.length = 7 ∧ Leads [4, 8] ps := by
  unfold setFilterArg at h
  split at h
  case h_2 => cases h
  split at h
  case h_2 => cases h
  next hk hf _ _ _ => exact ⟨rfl, finArg_lt hk, finArg_lt hf, trivial⟩

theorem setAcceptLongArg_shape (h : (setAcceptLongArg ps).isSome = true) : ps.length = 2 ∧ Leads [4] ps := by
  unfold setAcceptLongArg at h
  split at h
  case h_2 => cases h
  split at h
  case h_2 => cases h
  next hk _ => exact ⟨rfl, finArg_lt hk, trivial⟩

theorem setLampArg_shape (h : (setLampArg ps).isSome = true) : ps.length = 2 ∧ Leads [4] ps := by
  unfold setLampArg at h
  split at h
  case h_2 => cases h
  split at h
  case h_2 => cases h
  next hk _ => exact ⟨rfl, finArg_lt hk, trivial⟩

theorem programArg_length {bs : List Byte} {x : Program} (h : programArg bs = some x) : bs.length = 12 := by
  unfold programArg at h
  split at h
  · rfl
  · cases h

theorem limitArg_length {bs : List Byte} {x : Limit} (h : limitArg bs = some x) : bs.length = 10 := by
  unfold limitArg at h
  split at h
  · rfl
  · cases h

theorem writeProgramArg_shape (h : (writeProgramArg ps).isSome = true) : ps.length = 13 ∧ Leads [48] ps := by
  unfold writeProgramArg at h
  split at h
  case h_2 => cases h
  split at h
  case h_2 => cases h
  next hi hx => exact ⟨by rw [List.length_cons, programArg_length hx], finArg_lt hi, trivial⟩

theorem writeLimitArg_length (h : (writeLimitArg ps).isSome = true) : ps.length = 11 := by
  unfold writeLimitArg at h
  split at h
  case h_2 => cases h
  split at h
  case h_2 => cases h
  next hx => rw [List.length_cons, limitArg_length hx]

theorem readPatternArg_length (h : (readPatternArg ps).isSome = true) : ps.length = 3 := by
  unfold readPatternArg at h
  split at h
  · rfl
  · cases h

theorem readPanelArg_length (h : (readPanelArg ps).isSome = true) : ps.length = 1 := by
  unfold readPanelArg at h
  split at h
  · rfl
  · cases h

/-! ### The commands whose length a field gives (R55, R150, R173, R181) -/

theorem writePatternArg_range (h : (writePatternArg ps).isSome = true) : 5 ≤ ps.length ∧ ps.length ≤ 131 := by
  obtain ⟨⟨a, ws⟩, harg⟩ := Option.isSome_iff_exists.mp h
  match ps, harg with
  | lo :: hi :: count :: bytes, harg =>
    obtain ⟨hlen, h1, h64⟩ := writePatternArg_length harg
    simp only [List.length_cons]
    omega

theorem writePanelArg_range (h : (writePanelArg ps).isSome = true) : 2 ≤ ps.length ∧ ps.length ≤ 129 := by
  unfold writePanelArg at h
  split at h
  case h_2 => cases h
  split at h
  case isFalse => cases h
  next hrange =>
    simp only [List.length_cons]
    omega

theorem setSerialArg_shape (h : (setSerialArg ps).isSome = true) :
    2 ≤ ps.length ∧ ps.length ≤ 26 ∧ Leads [4] ps := by
  unfold setSerialArg at h
  split at h
  case h_2 => cases h
  split at h
  case h_2 => cases h
  next hk =>
    split at h
    case isFalse => cases h
    next hrange =>
      refine ⟨?_, ?_, finArg_lt hk, trivial⟩ <;> simp only [List.length_cons] <;> omega

theorem entryArg_length {bs rest : List Byte} {x : ChannelEntry} (h : entryArg bs = some (x, rest)) :
    bs.length = 6 + rest.length := by
  unfold entryArg at h
  split at h
  case h_2 => cases h
  split at h
  case h_2 => cases h
  cases h
  simp only [List.length_cons]
  omega

theorem measArg_length {bs rest : List Byte} {x : Measurement} (h : measArg bs = some (x, rest)) :
    bs.length = 5 + rest.length := by
  unfold measArg at h
  split at h
  case h_2 => cases h
  split at h
  case h_2 => cases h
  cases h
  simp only [List.length_cons]
  omega

theorem promptArg_length {bs rest : List Byte} {x : Prompt} (h : promptArg bs = some (x, rest)) :
    bs.length = 4 + rest.length := by
  unfold promptArg at h
  split at h
  case h_2 => cases h
  split at h
  case h_2 => cases h
  split at h
  case isFalse => cases h
  cases h
  simp only [List.length_cons]
  omega

theorem expectationArg_length {bs rest : List Byte} {x : Expectation} (h : expectationArg bs = some (x, rest)) :
    bs.length = 41 + rest.length := by
  unfold expectationArg at h
  split at h
  case h_2 => cases h
  next body =>
    split at h
    case h_2 => cases h
    next required flag tail hbody =>
      split at h
      case h_2 => cases h
      next aRule rest' htail =>
        split at h
        case h_2 => cases h
        split at h
        case isFalse => cases h
        cases h
        have hbodyLength := congrArg List.length hbody
        have htailLength := congrArg List.length htail
        simp only [List.length_drop, List.length_cons] at hbodyLength htailLength ⊢
        omega

/-- Items of one length, one after another. -/
theorem manyArg_length {α : Type} {item : List Byte → Option (α × List Byte)} {m : Nat}
    (hitem : ∀ bs x rest, item bs = some (x, rest) → bs.length = m + rest.length) {n : Nat} {bs rest : List Byte}
    {xs : List α} (h : manyArg item n bs = some (xs, rest)) : bs.length = n * m + rest.length := by
  induction n generalizing bs xs with
  | zero =>
    cases h
    omega
  | succ n ih =>
    simp only [manyArg] at h
    split at h
    case h_1 => cases h
    next x r hx =>
      split at h
      case h_1 => cases h
      next ys r' hys =>
        cases h
        rw [hitem bs x r hx, ih hys, Nat.succ_mul]
        omega

/-- An optional group takes its length or nothing. -/
theorem optionalArg_length {α : Type} {item : List Byte → Option (α × List Byte)} {m : Nat}
    (hitem : ∀ bs x rest, item bs = some (x, rest) → bs.length = m + rest.length) {b : Bool} {bs rest : List Byte}
    {x : Option α} (h : optionalArg item b bs = some (x, rest)) :
    rest.length ≤ bs.length ∧ bs.length ≤ m + rest.length := by
  unfold optionalArg at h
  split at h
  · split at h
    case h_1 => cases h
    next y r hy =>
      cases h
      rw [hitem bs y rest hy]
      omega
  · cases h
    omega

/-- A step record: its header of 9 bytes, up to three entries and two measurements, an expectation and a prompt. -/
theorem stepArg_range {bs : List Byte} {st : Step} (h : stepArg bs = some st) : 9 ≤ bs.length ∧ bs.length ≤ 82 := by
  unfold stepArg at h
  split at h
  case h_2 => cases h
  split at h
  case h_2 => cases h
  split at h
  case isFalse => cases h
  next hcounts =>
    split at h
    case h_1 => cases h
    next r1 hentries =>
      split at h
      case h_1 => cases h
      next r2 hmeas =>
        split at h
        case h_1 => cases h
        next r3 hexp =>
          split at h
          case h_2 => cases h
          next hprompt =>
            have h1 := manyArg_length (fun _ _ _ => entryArg_length) hentries
            have h2 := manyArg_length (fun _ _ _ => measArg_length) hmeas
            have h3 := optionalArg_length (fun _ _ _ => expectationArg_length) hexp
            have h4 := optionalArg_length (fun _ _ _ => promptArg_length) hprompt
            simp only [List.length_cons, List.length_nil] at h4 ⊢
            omega

theorem queueStepArg_shape (h : (queueStepArg ps).isSome = true) :
    10 ≤ ps.length ∧ ps.length ≤ 83 ∧ Leads [4] ps := by
  unfold queueStepArg at h
  split at h
  case h_2 => cases h
  split at h
  case h_2 => cases h
  next hk hst =>
    obtain ⟨h9, h82⟩ := stepArg_range hst
    refine ⟨?_, ?_, finArg_lt hk, trivial⟩ <;> simp only [List.length_cons] <;> omega

/-! ### The tables of commands -/

theorem oneIndexCommands_read : ∀ x ∈ oneIndexCommands,
    callOf (x.1 p ps) = some (p, ps) ∧ operandsRead (x.1 p ps) = (indexArg x.2 ps).isSome := by
  simp only [oneIndexCommands, List.cons_append, List.nil_append, List.forall_mem_cons,
    List.not_mem_nil, false_imp_iff, implies_true, and_true]
  and_intros <;> rfl

theorem plainCommands_read : ∀ x ∈ plainCommands,
    callOf (x p ps) = some (p, ps) ∧ operandsRead (x p ps) = (noArg ps).isSome := by
  simp only [plainCommands, List.forall_mem_cons,
    List.not_mem_nil, false_imp_iff, implies_true, and_true]
  and_intros <;> rfl

theorem leadingIndexes_call : ∀ x ∈ leadingIndexes, callOf (x.1 p ps) = some (p, ps) := by
  simp only [leadingIndexes, List.cons_append, List.nil_append, List.forall_mem_cons,
    List.not_mem_nil, false_imp_iff, implies_true, and_true]
  and_intros <;> rfl

theorem leadingIndexes_read : ∀ x ∈ leadingIndexes, operandsRead (x.1 p ps) = true → Leads x.2 ps := by
  simp only [leadingIndexes, List.cons_append, List.nil_append, List.forall_mem_cons]
  exact ⟨fun h => (abortStepArg_shape h).2, fun h => (indexPairArg_shape h).2, fun h => (indexPairArg_shape h).2,
    fun h => (setShadowArg_shape h).2, fun h => (setOutputArg_shape h).2, fun h => (setFrameSlotArg_shape h).2,
    fun h => (setFilterArg_shape h).2, fun h => (setAcceptLongArg_shape h).2, fun h => (setLampArg_shape h).2,
    fun h => (setSerialArg_shape h).2.2, fun h => (queueStepArg_shape h).2.2, fun h => (indexPairArg_shape h).2,
    fun h => (indexPairArg_shape h).2, fun h => (writeProgramArg_shape h).2, fun h => (setCalibrationArg_shape h).2,
    fun _ h => absurd h List.not_mem_nil⟩

theorem fixedLengths_call : ∀ x ∈ fixedLengths, callOf (x.1 p ps) = some (p, ps) := by
  simp only [fixedLengths, List.cons_append, List.nil_append, List.forall_mem_cons,
    List.not_mem_nil, false_imp_iff, implies_true, and_true]
  and_intros <;> rfl

theorem fixedLengths_read : ∀ x ∈ fixedLengths, operandsRead (x.1 p ps) = true → ps.length = x.2 := by
  simp only [fixedLengths, List.cons_append, List.nil_append, List.forall_mem_cons]
  exact ⟨fun h => (abortStepArg_shape h).1, fun h => (indexPairArg_shape h).1, fun h => (indexPairArg_shape h).1,
    fun h => (setShadowArg_shape h).1, fun h => (setOutputArg_shape h).1, fun h => (setFrameSlotArg_shape h).1,
    fun h => (setFilterArg_shape h).1, fun h => (setAcceptLongArg_shape h).1, fun h => (setLampArg_shape h).1,
    fun h => (indexPairArg_shape h).1, fun h => (indexPairArg_shape h).1, fun h => (writeProgramArg_shape h).1,
    writeLimitArg_length, fun h => (setCalibrationArg_shape h).1, readPatternArg_length, readPanelArg_length,
    fun _ h => absurd h List.not_mem_nil⟩

theorem shortestLengths_call : ∀ x ∈ shortestLengths, callOf (x.1 p ps) = some (p, ps) := by
  simp only [shortestLengths, List.forall_mem_cons,
    List.not_mem_nil, false_imp_iff, implies_true, and_true]
  and_intros <;> rfl

theorem shortestLengths_read : ∀ x ∈ shortestLengths, operandsRead (x.1 p ps) = true → x.2 ≤ ps.length := by
  simp only [shortestLengths, List.forall_mem_cons]
  exact ⟨fun h => (writePatternArg_range h).1, fun h => (writePanelArg_range h).1, fun h => (setSerialArg_shape h).1,
    fun h => (queueStepArg_shape h).1, fun _ h => absurd h List.not_mem_nil⟩

/-- No command calls for more than 256 parameter bytes: QUEUE_STEP takes 83 at most, WRITE_PATTERN 131, WRITE_PANEL
129 (R177). -/
theorem operandsRead_length {c : Instr} (hc : callOf c = some (p, ps)) (hread : operandsRead c = true) :
    ps.length ≤ 256 := by
  cases c <;> cases hc
  case readNotice | portReset | readRegions | rmwBegin | rmwEnd | panelOn | panelOff | allPointsNormal
      | allPointsForced | readPanelState => exact (noArg_length hread).trans_le (by decide)
  case setNoticeLevel | readFrameSlot | readResult | setCursor =>
    exact (indexPairArg_shape hread).1.trans_le (by decide)
  case abortStep => exact (abortStepArg_shape hread).1.trans_le (by decide)
  case readPattern => exact (readPatternArg_length hread).trans_le (by decide)
  case writeProgram => exact (writeProgramArg_shape hread).1.trans_le (by decide)
  case setShadow => exact (setShadowArg_shape hread).1.trans_le (by decide)
  case setOutput => exact (setOutputArg_shape hread).1.trans_le (by decide)
  case setFrameSlot => exact (setFrameSlotArg_shape hread).1.trans_le (by decide)
  case setCalibration => exact (setCalibrationArg_shape hread).1.trans_le (by decide)
  case writeLimit => exact (writeLimitArg_length hread).trans_le (by decide)
  case setFilter => exact (setFilterArg_shape hread).1.trans_le (by decide)
  case setAcceptLong => exact (setAcceptLongArg_shape hread).1.trans_le (by decide)
  case readPanel => exact (readPanelArg_length hread).trans_le (by decide)
  case setLamp => exact (setLampArg_shape hread).1.trans_le (by decide)
  case queueStep => exact (queueStepArg_shape hread).2.1.trans (by decide)
  case writePattern => exact (writePatternArg_range hread).2.trans (by decide)
  case writePanel => exact (writePanelArg_range hread).2.trans (by decide)
  case setSerial => exact (setSerialArg_shape hread).2.1.trans (by decide)
  all_goals exact (indexArg_length hread).trans_le (by decide)

/-- Settles O12: parameters that break a length or an index are not read as operands. -/
theorem lengthAndIndexChecks : Obligations.LengthAndIndexChecks := by
  intro p ps s h
  refine ⟨fun x hx hout => ?_, fun x hx hsome => ?_, fun x hx hout => ?_, fun x hx hlen => ?_, fun x hx hlen => ?_,
    fun c hc hlen => ?_⟩
  · obtain ⟨hc, hread⟩ := oneIndexCommands_read x hx
    exact exec_misread hc h (by rw [hread, indexArg_none hout]; rfl)
  · obtain ⟨hc, hread⟩ := plainCommands_read x hx
    exact exec_misread hc h (by rw [hread, noArg_none hsome]; rfl)
  · obtain ⟨i, b, n, hb, hn, hge⟩ := hout
    refine exec_misread (leadingIndexes_call x hx) h (Bool.eq_false_of_not_eq_true fun hread => ?_)
    exact absurd ((leadingIndexes_read x hx hread).getElem hb hn) (Nat.not_lt.mpr hge)
  · exact exec_misread (fixedLengths_call x hx) h
      (Bool.eq_false_of_not_eq_true fun hread => hlen (fixedLengths_read x hx hread))
  · exact exec_misread (shortestLengths_call x hx) h
      (Bool.eq_false_of_not_eq_true fun hread => absurd (shortestLengths_read x hx hread) (Nat.not_le.mpr hlen))
  · exact exec_misread hc h
      (Bool.eq_false_of_not_eq_true fun hread => absurd (operandsRead_length hc hread) (Nat.not_le.mpr hlen))

end Steps
end Machine
end Sys2Proof
end

section
/-! What changes pattern memory (R50, R55, R60): WRITE_PATTERN, a cold reset and the clear of the load. Everything the
sequencer does lies in `Works`, which leaves pattern memory alone; the rest is carried by the updates. -/

namespace Sys2Proof
namespace Machine
namespace Steps

variable {s t : State} {p : Port} {body : State × Answer}

/-! ### The checks of a command (R178) -/

theorem done_pattern (h : t.pattern = s.pattern) : (done t).1.pattern = s.pattern := h

theorem doneWith_pattern (h : t.pattern = s.pattern) (bytes : List Byte) : (doneWith t bytes).1.pattern = s.pattern := h

theorem accepted_pattern (h : t.pattern = s.pattern) : (accepted t).1.pattern = s.pattern := h

theorem require_pattern {c : Bool} {st : Status} (hb : body.1.pattern = s.pattern) :
    (require s c st body).1.pattern = s.pattern := by
  cases c with
  | false => rfl
  | true => exact hb

theorem ifOwner_pattern {k : Fin 4} (hb : body.1.pattern = s.pattern) :
    (ifOwner s p k body).1.pattern = s.pattern := by
  unfold ifOwner
  split
  · exact hb
  · rfl

theorem ifOwnerOrFree_pattern {k : Fin 4} (hb : body.1.pattern = s.pattern) :
    (ifOwnerOrFree s p k body).1.pattern = s.pattern := by
  unfold ifOwnerOrFree
  split
  · rfl
  · exact hb

/-- A command whose body leaves pattern memory for the operand that was read. -/
theorem takenCommand_pattern {α : Type} {arg : Option α} {body : α → State × Answer}
    (he : command p s (withArg s arg body) = .next t) (hb : ∀ x, arg = some x → (body x).1.pattern = s.pattern) :
    t.pattern = s.pattern := by
  have harg : (withArg s arg body).1.pattern = s.pattern := by
    cases arg with
    | none => rfl
    | some x => exact hb x rfl
  unfold command at he
  split at he
  · injection he with he
    rw [← he]
  · split at he <;> injection he with he <;> rw [← he] <;> simp [State.answer, harg]

/-- A command whose body leaves pattern memory for every operand. -/
theorem command_pattern {α : Type} {arg : Option α} {body : α → State × Answer}
    (he : command p s (withArg s arg body) = .next t) (hb : ∀ x, (body x).1.pattern = s.pattern) :
    t.pattern = s.pattern :=
  takenCommand_pattern he fun x _ => hb x

/-- A command of one seat that its owner alone may give (R13). -/
theorem ownerCommand_pattern {α : Type} {arg : Option α} {seat : α → Fin 4} {body : α → State × Answer}
    (he : command p s (withArg s arg fun x => ifOwner s p (seat x) (body x)) = .next t)
    (hb : ∀ x, (body x).1.pattern = s.pattern) : t.pattern = s.pattern :=
  command_pattern he fun x => ifOwner_pattern (hb x)

theorem whenDue_pattern {due : Bool} {u : State} (he : whenDue s due u = .next t) (hu : u.pattern = s.pattern) :
    t.pattern = s.pattern := by
  cases due with
  | false => injection he with he; rw [← he]; rfl
  | true => injection he with he; rw [← he]; exact hu

/-! ### Operations that leave pattern memory -/

/-- Whatever the sequencer does on whichever seats leaves pattern memory. -/
theorem works_pattern (w : Works (fun _ => True) s t) : t.pattern = s.pattern := w.pattern

theorem setPort_pattern (p : Port) (r : PortRecord) : (s.setPort p r).pattern = s.pattern := by simp

theorem setCursor_pattern (p : Port) (c : Cursor) : (s.setCursor p c).pattern = s.pattern := by simp

theorem setKey_pattern (y : Key) (d : Debounce) : (s.setKey y d).pattern = s.pattern := by simp

theorem enterState_pattern (k : Fin 4) (st : SeatState) (d : Option RackTime) (n : Option Nat) :
    (s.enterState k st d n).pattern = s.pattern :=
  works_pattern (s := s.setRecord k _) ((works_relamp k _).trans (works_postSeat k _))

theorem enterTesting_pattern (k : Fin 4) : (s.enterTesting k).pattern = s.pattern :=
  works_pattern (works_enterTesting k trivial fun _ _ => trivial)

theorem haltSeat_arbitrate_pattern (k : Fin 4) (c : Cause) : (s.haltSeat k c).arbitrate.pattern = s.pattern :=
  works_pattern ((works_haltSeat k c trivial).arbitrated fun _ _ => trivial)

theorem abortByPolicy_pattern (k : Fin 4) (c : Cause) : (s.abortByPolicy k c).pattern = s.pattern :=
  works_pattern (works_abortByPolicy k c trivial fun _ _ => trivial)

theorem expireWindow_pattern (k : Fin 4) : (s.expireWindow k).pattern = s.pattern :=
  works_pattern (works_expireWindow k trivial fun _ _ => trivial)

theorem setLampMode_pattern (k : Fin 4) (m : LampMode) : (s.setLampMode k m).pattern = s.pattern :=
  works_pattern (s := s.setLamp k _) (works_relamp k _)

theorem resetSeat_pattern (k : Fin 4) : (resetSeat s k).pattern = s.pattern := by
  unfold resetSeat
  dsimp only
  split
  · exact works_pattern (s := s.setRecord k _) (works_haltSeat k .portReset trivial)
  · rfl

theorem dropGrants_pattern (p : Port) : (s.dropGrants p).pattern = s.pattern := by
  have hfold : ∀ (rs : List (Fin 32)) (u : State),
      (rs.foldl (fun t r => t.setGrant r ((t.grant r).drop p)) u).pattern = u.pattern := by
    intro rs
    induction rs with
    | nil => exact fun _ => rfl
    | cons r rs ih => exact fun u => ih _
  exact hfold regionIds s

theorem portReset_pattern (p : Port) : (s.portReset p).pattern = s.pattern := by
  unfold State.portReset
  rw [dropGrants_pattern, works_pattern (works_arbitrate fun _ _ => trivial),
    takeInOpenOrder_keeps (view := State.pattern) (fun _ k => resetSeat_pattern k) (fun _ _ => rfl),
    State.resetPortRecord, setCursor_pattern, setPort_pattern]

theorem clamp_pattern (k : Fin 4) : (s.clamp k).1.pattern = s.pattern := by
  unfold State.clamp
  split <;> exact enterState_pattern _ _ _ _

theorem flush_pattern (k : Fin 4) : (s.flush k).pattern = s.pattern := by
  unfold State.flush
  split
  · exact works_pattern (s := s.setQueue k [])
      ((works_leaveFor k .powered _ trivial (by decide) rfl).arbitrated fun _ _ => trivial)
  · rfl

theorem setPanelMode_pattern (d : Display) (a : AllPoints) : (s.setPanelMode d a).pattern = s.pattern := by
  obtain ⟨_, hl, -⟩ := leaveSaver_eq { s with panel := { s.panel with display := d, allPoints := a } }
  unfold State.setPanelMode
  dsimp only
  rw [hl]
  split <;> split <;> rfl

theorem writePanel_pattern (p : Port) (bs : List Byte) : (s.writePanel p bs).pattern = s.pattern := by
  unfold State.writePanel
  exact setCursor_pattern _ _

theorem vacate_pattern (k : Fin 4) : (s.vacate k).pattern = s.pattern :=
  enterState_pattern (s := s.setQueue k []) _ _ _ _

theorem faultSeat_pattern (k : Fin 4) (c : Cause) (hc : c.isFault = true) : (s.faultSeat k c).pattern = s.pattern :=
  works_pattern (works_faultSeat k c hc trivial fun _ _ => trivial)

theorem presentChanged_pattern (k : Fin 4) : (s.presentChanged k).pattern = s.pattern := by
  unfold State.presentChanged
  split
  case h_1 => exact enterState_pattern _ _ _ _
  case h_2 => exact vacate_pattern k
  case h_3 | h_4 | h_5 | h_6 | h_7 => exact faultSeat_pattern k _ rfl
  case h_8 => rfl

theorem confirmChanged_pattern (k : Fin 4) : (s.confirmChanged k).pattern = s.pattern := by
  unfold State.confirmChanged
  split
  case h_1 => exact enterState_pattern _ _ _ _
  case h_2 | h_3 | h_4 | h_5 => exact faultSeat_pattern k _ rfl
  case h_6 =>
    split
    · exact enterState_pattern _ _ _ _
    · exact vacate_pattern k
  case h_7 => rfl

theorem tripChanged_pattern (k : Fin 4) : (s.tripChanged k).pattern = s.pattern := by
  unfold State.tripChanged
  split
  case h_1 | h_2 | h_3 => exact faultSeat_pattern k _ rfl
  case h_4 => rfl

/-- During the load a level is recorded and nothing follows (R22). -/
theorem afterLoad_pattern {u : State} (hu : u.pattern = s.pattern) : (s.afterLoad u).pattern = s.pattern := by
  unfold State.afterLoad
  split
  · exact hu
  · rfl

theorem takeRefusal_pattern {r : State × Bool} (c : Fin 8) : (takeRefusal r c).pattern = r.1.pattern := by
  unfold takeRefusal
  split
  · exact works_pattern (works_handleRefusal c (fun _ _ => trivial) fun _ _ => trivial)
  · rfl

theorem takeRefusal?_pattern {r : State × Option (Fin 8)} : (takeRefusal? r).pattern = r.1.pattern := by
  unfold takeRefusal?
  split
  · rfl
  · exact works_pattern (works_handleRefusal _ (fun _ _ => trivial) fun _ _ => trivial)

theorem examineFrame_pattern (k : Fin 4) (ident : BitVec 11) (data : List Byte) :
    (s.examineFrame k ident data).pattern = s.pattern := by
  unfold State.examineFrame
  dsimp only
  split
  · rfl
  · exact works_pattern (s := s.setCapture k _) (works_deliverExpect k _ trivial fun _ _ => trivial)

theorem passSample_pattern (m : Fin 6) (input : Fin 32) (raw : BitVec 12) :
    (s.passSample m input raw).pattern = s.pattern := by
  unfold State.passSample
  split
  · dsimp only
    split
    · exact works_pattern (s := s.setSlot m _) (works_deliverMeas _ _ _ trivial fun _ _ => trivial)
    · rfl
  · rfl

theorem completeConversion_pattern : s.completeConversion.pattern = s.pattern := by
  unfold State.completeConversion
  split
  · rfl
  · dsimp only
    rw [works_pattern works_converterArbiter]
    split
    · exact passSample_pattern _ _ _
    · rfl

theorem endStore_pattern (x : StoreOp) (acc : StoreAccepted) : (s.endStore x acc).pattern = s.pattern :=
  setPort_pattern (s := ({ s with eeprom := storedWords s.eeprom x acc } : State).setStore none) _ _

theorem keyPressed_pattern (k : Fin 4) (a : YesNo) : (s.keyPressed k a).pattern = s.pattern := by
  unfold State.keyPressed
  split
  · exact works_pattern ((works_closePrompt k trivial).trans (works_deliverPrompt k _ trivial fun _ _ => trivial))
  · exact works_pattern (works_postSeat k _)

theorem stopPressed_pattern : s.stopPressed.pattern = s.pattern := by
  refine takeInOpenOrder_keeps (view := State.pattern) (f := stopOne) (fun u k => ?_) (fun _ _ => rfl) _
  unfold stopOne
  split
  · exact haltSeat_arbitrate_pattern k _
  · rfl

/-! ### Every command and every event -/

/-- The commands and events that may write or clear pattern memory (R55, R60, R190). -/
def touchesPattern : Instr → Bool
  | .writePattern _ _ | .coldReset _ | .loadEnd _ => true
  | _ => false

/-- Every other command and event leaves pattern memory. -/
theorem exec_pattern {c : Instr} (he : exec c s = .next t) (hc : touchesPattern c = false) :
    t.pattern = s.pattern := by
  cases c with
  | writePattern | coldReset | loadEnd => cases hc
  | status p ps =>
    change execStatus p ps s = _ at he
    unfold execStatus at he
    split at he
    · injection he with he; rw [← he]
    · split at he <;> injection he with he <;> rw [← he, State.answer, setPort_pattern]
      exact setPort_pattern _ _
  | unknownCommand p code ps =>
    change execUnknownCommand p code ps s = _ at he
    unfold execUnknownCommand at he
    split at he <;> injection he with he <;> rw [← he]
    exact setPort_pattern _ _
  | linkTransactionDiscarded p bytes =>
    change execLinkTransactionDiscarded p bytes s = _ at he
    unfold execLinkTransactionDiscarded at he
    split at he <;> injection he with he <;> rw [← he]
    exact setPort_pattern _ _
  | portResetInput p =>
    change execPortResetInput p s = _ at he
    unfold execPortResetInput at he
    split at he <;> injection he with he <;> rw [← he]
    · exact setPort_pattern _ _
    · exact (setPort_pattern _ _).trans (setPort_pattern _ _)
    · exact (portReset_pattern p).trans (setPort_pattern _ _)
  | portResetRelease p =>
    injection he with he
    rw [← he]
    exact setPort_pattern _ _
  | readSeat p ps | readStepState p ps | readSnapshot p ps | readPattern p ps | readRegions p ps | readProgram p ps
  | readChannel p ps | readOutputs p ps | readFrameSlot p ps | readCalibration p ps | readSlot p ps | readLimit p ps
  | readPanelState p ps | readResult p ps | readSummary p ps | setCalibration p ps | readCapture p ps
  | captureStatus p ps => exact command_pattern he fun _ => rfl
  | claimSeat p ps | shareRegion p ps | dropRegion p ps | writeProgram p ps | eraseProgram p ps
  | storeCalibration p ps | writeLimit p ps | eraseLimit p ps =>
    exact command_pattern he fun _ => require_pattern rfl
  | setFrameSlot p ps | setFilter p ps | setAcceptLong p ps | flushCapture p ps =>
    exact ownerCommand_pattern he fun _ => rfl
  | releaseSeat p ps | setShadow p ps => exact ownerCommand_pattern he fun _ => require_pattern rfl
  | queueStep p ps | setOutput p ps | setSerial p ps =>
    exact ownerCommand_pattern he fun _ => require_pattern (require_pattern rfl)
  | readNotice p ps => exact command_pattern he fun _ => doneWith_pattern (setPort_pattern _ _) _
  | setNoticeLevel p ps | setThreshold p ps => exact command_pattern he fun _ => done_pattern (setPort_pattern _ _)
  | portReset p ps => exact command_pattern he fun _ => done_pattern (portReset_pattern p)
  | takeRegion p ps =>
    refine command_pattern he fun r => ?_
    split
    · rfl
    · exact require_pattern rfl
  | clamp p ps => exact ownerCommand_pattern he fun k => require_pattern (require_pattern (clamp_pattern k))
  | unclamp p ps =>
    exact ownerCommand_pattern he fun _ => require_pattern (accepted_pattern (enterState_pattern _ _ _ _))
  | powerOn p ps =>
    exact ownerCommand_pattern he fun _ => require_pattern (done_pattern (enterState_pattern _ _ _ _))
  | powerOff p ps =>
    exact ownerCommand_pattern he fun k =>
      require_pattern (done_pattern (enterState_pattern (s := s.restOutputs k) _ _ _ _))
  | start p ps | resume p ps =>
    exact ownerCommand_pattern he fun k => require_pattern (done_pattern (enterTesting_pattern k))
  | stopSeat p ps =>
    exact ownerCommand_pattern he fun k => require_pattern (done_pattern (haltSeat_arbitrate_pattern k _))
  | clearFault p ps =>
    exact command_pattern he fun _ => ifOwnerOrFree_pattern
      (require_pattern (done_pattern (enterState_pattern _ _ _ _)))
  | flushQueue p ps => exact ownerCommand_pattern he fun k => doneWith_pattern (flush_pattern k) _
  | abortStep p ps =>
    exact ownerCommand_pattern he fun x => require_pattern (done_pattern (abortByPolicy_pattern x.1 _))
  | clearResults p ps => exact command_pattern he fun _ => ifOwnerOrFree_pattern (require_pattern rfl)
  | setCursor p ps | rmwBegin p ps | rmwEnd p ps =>
    exact command_pattern he fun _ => require_pattern (done_pattern (setCursor_pattern _ _))
  | readPanel p ps => exact command_pattern he fun _ => doneWith_pattern (setCursor_pattern _ _) _
  | writePanel p ps =>
    exact command_pattern he fun bs => require_pattern (require_pattern (done_pattern (writePanel_pattern p bs)))
  | panelOn p ps | panelOff p ps | allPointsNormal p ps | allPointsForced p ps =>
    exact command_pattern he fun _ => done_pattern (setPanelMode_pattern _ _)
  | setLamp p ps =>
    exact ownerCommand_pattern he fun x => done_pattern (setLampMode_pattern x.1 x.2)
  | sensorRawChange k x active =>
    injection he with he
    rw [← he]
    rfl
  | presentLevelChange k =>
    exact whenDue_pattern he (afterLoad_pattern (s := s.settleSensor k .present) (presentChanged_pattern k))
  | confirmLevelChange k =>
    exact whenDue_pattern he (afterLoad_pattern (s := s.settleSensor k .confirm) (confirmChanged_pattern k))
  | tripLevelChange k =>
    exact whenDue_pattern he (afterLoad_pattern (s := s.settleSensor k .trip) (tripChanged_pattern k))
  | clampTimerExpiry k | unclampTimerExpiry k => exact whenDue_pattern he (faultSeat_pattern k _ rfl)
  | windowExpiry k => exact whenDue_pattern he (expireWindow_pattern k)
  | timerTrigger c => exact whenDue_pattern he ((takeRefusal_pattern c).trans (works_pattern (works_takeTimer c)))
  | channelMove c => exact whenDue_pattern he ((takeRefusal_pattern c).trans (works_pattern (works_moveOnce c)))
  | frameSlotDue k f =>
    exact whenDue_pattern he (takeRefusal?_pattern.trans
      (works_pattern ((works_setFrame k f _).trans (works_transmitArbiter k))))
  | transmissionComplete k ack =>
    change execTransmissionComplete k ack s = _ at he
    unfold execTransmissionComplete at he
    split at he <;> injection he with he <;> rw [← he]
    exact takeRefusal?_pattern.trans
      (works_pattern ((works_endTransmission k _ ack).trans (works_transmitArbiter k)))
  | frameReceived k ident data => exact whenDue_pattern he (examineFrame_pattern k ident data)
  | gateTimeReached m => exact whenDue_pattern he (works_pattern (works_openGate m))
  | slotDue m => exact whenDue_pattern he (works_pattern (s := s.setSlot m _) works_converterArbiter)
  | conversionComplete m => exact whenDue_pattern he completeConversion_pattern
  | storeEnd acc =>
    change execStoreEnd acc s = _ at he
    unfold execStoreEnd at he
    split at he
    · injection he with he; rw [← he]
    · exact whenDue_pattern he (endStore_pattern _ acc)
  | keyRawChange key active =>
    injection he with he
    rw [← he]
    exact setKey_pattern _ _
  | keyPress k key =>
    exact whenDue_pattern he ((afterLoad_pattern (keyPressed_pattern k key)).trans (setKey_pattern _ _))
  | stopKeyPress => exact whenDue_pattern he ((afterLoad_pattern stopPressed_pattern).trans (setKey_pattern _ _))
  | keyRelease key => exact whenDue_pattern he (setKey_pattern _ _)
  | rackResetRelease => exact whenDue_pattern he rfl

/-- A WRITE_PATTERN that changes pattern memory was granted (R55). -/
theorem exec_writePattern_granted {ps : List Byte} (he : exec (.writePattern p ps) s = .next t)
    (hne : t.pattern ≠ s.pattern) :
    ∃ a ws, writePatternArg ps = some (a, ws) ∧ s.spanGranted p a.toNat ws.length = true := by
  by_contra hnot
  refine hne (takenCommand_pattern he fun ⟨a, ws⟩ harg => ?_)
  have hdenied : s.spanGranted p a.toNat ws.length = false :=
    Bool.eq_false_of_not_eq_true fun hg => hnot ⟨a, ws, harg, hg⟩
  dsimp only
  rw [hdenied]
  rfl

/-- Settles O9: of the three that touch pattern memory, WRITE_PATTERN needs its grant. -/
theorem patternChangesOnlyByWriteOrClear : Obligations.PatternChangesOnlyByWriteOrClear := by
  intro c s t he hne
  cases hc : touchesPattern c with
  | false => exact absurd (exec_pattern he hc) hne
  | true =>
    cases c with
    | writePattern p ps =>
      obtain ⟨a, ws, harg, hg⟩ := exec_writePattern_granted he hne
      exact Or.inl ⟨p, ps, a, ws, rfl, harg, hg⟩
    | coldReset acc => exact Or.inr (Or.inl ⟨acc, rfl⟩)
    | loadEnd a => exact Or.inr (Or.inr ⟨a, rfl⟩)
    | _ => cases hc

end Steps
end Machine
end Sys2Proof
end

section
/-! The use counts of programs and limits (R65, R120). What a step does to the channel pool and to the slots with their
tables is said once by `CountsKept`: everything the sequencer does lies in `Works`, which keeps both counts; the
stations' own commands write an entry's record and leave its count; a cold reset frees everything. -/

namespace Sys2Proof
namespace Machine
namespace Steps

variable {s t u : State} {p : Port}

/-! ### Keeping both counts -/

/-- The use counts that are right in `s` are right in `t`. -/
structure CountsKept (s t : State) : Prop where
  programs : s.ProgramsCounted → t.ProgramsCounted
  limits : s.LimitsCounted → t.LimitsCounted

theorem CountsKept.refl (s : State) : CountsKept s s := ⟨id, id⟩

theorem CountsKept.trans (h : CountsKept s t) (g : CountsKept t u) : CountsKept s u :=
  ⟨g.programs ∘ h.programs, g.limits ∘ h.limits⟩

/-- Whatever the sequencer does on whichever seats keeps the counts. -/
theorem countsKept_works (w : Works (fun _ => True) s t) : CountsKept s t := ⟨w.programsCounted, w.limitsCounted⟩

theorem CountsKept.works (h : CountsKept s t) (w : Works (fun _ => True) t u) : CountsKept s u :=
  h.trans (countsKept_works w)

/-- The counts speak of the channels, the slots, and each entry's count alone. -/
theorem countsKept_of_uses (hc : ∀ c, t.channel c = s.channel c) (hm : ∀ m, t.slot m = s.slot m)
    (hp : ∀ i, (t.program i).uses = (s.program i).uses) (hl : ∀ i, (t.limit i).uses = (s.limit i).uses) :
    CountsKept s t where
  programs h := ⟨fun c hf => by rw [hc] at hf ⊢; exact h.free c hf,
    fun i => by rw [hp, h.uses]; simp only [State.running, hc]⟩
  limits h := ⟨fun m hf => by rw [hm] at hf ⊢; exact h.free m hf,
    fun i => by rw [hl, h.uses]; simp only [State.judging, hm]⟩

theorem countsKept_ite {c : Prop} [Decidable c] (ht : CountsKept s t) (hu : CountsKept s u) :
    CountsKept s (if c then t else u) := by split <;> assumption

theorem countsKept_foldl {α : Type} {f : State → α → State} (hf : ∀ v a, CountsKept v (f v a)) (xs : List α) (s : State) :
    CountsKept s (xs.foldl f s) := by
  induction xs generalizing s with
  | nil => exact .refl s
  | cons a xs ih => exact (hf s a).trans (ih (f s a))

theorem countsKept_takeInOpenOrder {α : Type} {f : State → α → State} (hf : ∀ v a, CountsKept v (f v a)) (xs : List α) :
    CountsKept s (s.takeInOpenOrder xs f) := by
  unfold State.takeInOpenOrder
  split
  · exact .refl s
  · exact hf s _
  · exact (countsKept_works (works_draws _)).trans (countsKept_foldl hf _ _)

/-! ### Updates that touch no channel, no slot and no count -/

theorem countsKept_setRecord (k : Fin 4) (r : SeatRecord) : CountsKept s (s.setRecord k r) :=
  countsKept_of_uses (by simp) (by simp) (by simp) (by simp)

theorem countsKept_setQueue (k : Fin 4) (q : List Step) : CountsKept s (s.setQueue k q) :=
  countsKept_of_uses (by simp) (by simp) (by simp) (by simp)

theorem countsKept_setCapture (k : Fin 4) (c : Capture) : CountsKept s (s.setCapture k c) :=
  countsKept_of_uses (by simp) (by simp) (by simp) (by simp)

theorem countsKept_setResults (k : Fin 4) (r : ResultStore) : CountsKept s (s.setResults k r) :=
  countsKept_of_uses (by simp) (by simp) (by simp) (by simp)

theorem countsKept_setPort (p : Port) (r : PortRecord) : CountsKept s (s.setPort p r) :=
  countsKept_of_uses (by simp) (by simp) (by simp) (by simp)

theorem countsKept_setCursor (p : Port) (c : Cursor) : CountsKept s (s.setCursor p c) :=
  countsKept_of_uses (by simp) (by simp) (by simp) (by simp)

theorem countsKept_setKey (y : Key) (d : Debounce) : CountsKept s (s.setKey y d) :=
  countsKept_of_uses (by simp) (by simp) (by simp) (by simp)

theorem countsKept_setLamp (k : Fin 4) (x : Lamp) : CountsKept s (s.setLamp k x) :=
  countsKept_of_uses (by simp) (by simp) (by simp) (by simp)

theorem countsKept_setGrant (r : Fin 32) (g : Grant) : CountsKept s (s.setGrant r g) :=
  countsKept_of_uses (by simp) (by simp) (by simp) (by simp)

/-- A program record is written or erased beside its use count (R63, R64). -/
theorem countsKept_setProgram (i : Fin 48) (x : Option Program) :
    CountsKept s (s.setProgram i { s.program i with program := x }) :=
  countsKept_of_uses (by simp) (by simp)
    (fun j => by by_cases h : j = i <;> [(subst h; simp); simp [h]]) (by simp)

/-- A limit record is written or erased beside its use count (R118, R119). -/
theorem countsKept_setLimit (i : Fin 256) (x : Option Limit) :
    CountsKept s (s.setLimit i { s.limit i with limit := x }) :=
  countsKept_of_uses (by simp) (by simp) (by simp)
    (fun j => by by_cases h : j = i <;> [(subst h; simp); simp [h]])

/-! ### The checks of a command and of an event (R178) -/

theorem withArg_countsKept {α : Type} {arg : Option α} {body : α → State × Answer}
    (hb : ∀ x, CountsKept s (body x).1) : CountsKept s (withArg s arg body).1 := by
  cases arg with
  | none => exact .refl s
  | some x => exact hb x

theorem ifOwner_countsKept {k : Fin 4} {body : State × Answer} (hb : CountsKept s body.1) :
    CountsKept s (ifOwner s p k body).1 := by
  unfold ifOwner
  split
  · exact hb
  · exact .refl s

theorem ifOwnerOrFree_countsKept {k : Fin 4} {body : State × Answer} (hb : CountsKept s body.1) :
    CountsKept s (ifOwnerOrFree s p k body).1 := by
  unfold ifOwnerOrFree
  split
  · exact .refl s
  · exact hb

theorem require_countsKept {c : Bool} {st : Status} {body : State × Answer} (hb : CountsKept s body.1) :
    CountsKept s (require s c st body).1 := by
  cases c with
  | false => exact .refl s
  | true => exact hb

theorem done_countsKept (h : CountsKept s t) : CountsKept s (done t).1 := h

theorem doneWith_countsKept (h : CountsKept s t) (bytes : List Byte) : CountsKept s (doneWith t bytes).1 := h

theorem accepted_countsKept (h : CountsKept s t) : CountsKept s (accepted t).1 := h

/-- A command whose body keeps the counts for every operand it reads. -/
theorem command_countsKept {α : Type} {arg : Option α} {body : α → State × Answer}
    (he : command p s (withArg s arg body) = .next t) (hb : ∀ x, CountsKept s (body x).1) : CountsKept s t := by
  unfold command at he
  split at he
  · injection he with he; exact he ▸ .refl s
  · split at he <;> (injection he with he; subst he)
    · exact countsKept_setPort _ _
    · exact (withArg_countsKept hb).trans (countsKept_setPort _ _)

/-- A command of one seat that its owner alone may give, with one further condition (R13). -/
theorem ownerCommand_countsKept {α : Type} {arg : Option α} {seat : α → Fin 4} {body : α → State × Answer}
    (he : command p s (withArg s arg fun x => ifOwner s p (seat x) (body x)) = .next t)
    (hb : ∀ x, CountsKept s (body x).1) : CountsKept s t :=
  command_countsKept he fun x => ifOwner_countsKept (hb x)

theorem whenDue_countsKept {due : Bool} (he : whenDue s due u = .next t) (hu : CountsKept s u) : CountsKept s t := by
  injection he with he
  exact he ▸ countsKept_ite hu (.refl s)

/-! ### Ports, resets and the load -/

theorem resetSeat_countsKept (s : State) (k : Fin 4) : CountsKept s (resetSeat s k) := by
  unfold resetSeat
  exact countsKept_ite ((countsKept_setRecord k _).works (works_haltSeat k .portReset trivial)) (countsKept_setRecord k _)

theorem portReset_countsKept (p : Port) : CountsKept s (s.portReset p) := by
  have hcleared : CountsKept s (s.resetPortRecord p) := (countsKept_setPort p _).trans (countsKept_setCursor p _)
  have hseats := hcleared.trans (countsKept_takeInOpenOrder resetSeat_countsKept ((s.resetPortRecord p).seatsOf p))
  exact (hseats.works (works_arbitrate fun _ _ => trivial)).trans
    (countsKept_foldl (fun _ _ => countsKept_setGrant _ _) _ _)

/-- A cold reset frees every channel and every slot, and no entry is in use (R62, R66, R109, R117). -/
theorem coldReset_countsKept (acc : StoreAccepted) : CountsKept s (s.coldReset acc) := by
  have hc : ∀ c, (s.coldReset acc).channel c = Channel.free := fun c => by
    simp [State.channel, State.coldReset, State.reset]
  have hm : ∀ m, (s.coldReset acc).slot m = MeasSlot.free := fun m => by
    simp [State.slot, State.coldReset, State.reset]
  have hp : ∀ i, ((s.coldReset acc).program i).uses = 0 := fun i => by
    simp [State.program, State.coldReset, State.reset]
  have hl : ∀ i, ((s.coldReset acc).limit i).uses = 0 := fun i => by
    simp [State.limit, State.coldReset, State.reset]
  exact ⟨fun _ => ⟨fun c _ => by rw [hc]; rfl, fun i => by rw [hp]; simp [State.running, hc, Channel.free]⟩,
    fun _ => ⟨fun m _ => by rw [hm]; rfl, fun i => by rw [hl]; simp [State.judging, hm, MeasSlot.free]⟩⟩

theorem moveSeat_countsKept (k : Fin 4) (st : SeatState) (d : Option RackTime) : CountsKept s (s.moveSeat k st d) :=
  (countsKept_setRecord k _).works (works_relamp k _)

theorem enterState_countsKept (k : Fin 4) (st : SeatState) (d : Option RackTime) (n : Option Nat) :
    CountsKept s (s.enterState k st d n) := (moveSeat_countsKept k st d).works (works_postSeat k _)

theorem configure_countsKept (used : Bool) : CountsKept s (s.configure used) := by
  have hload : CountsKept s (if used then s.loadCalibration else s) :=
    countsKept_ite
      (countsKept_foldl (fun _ _ => countsKept_of_uses (by simp) (by simp) (by simp) (by simp)) calIds s) (.refl s)
  exact hload.trans (countsKept_of_uses (fun _ => rfl) (fun _ => rfl) (fun _ => rfl) (fun _ => rfl))

theorem endLoad_countsKept (answers : Bool) : CountsKept s (s.endLoad answers) :=
  ((configure_countsKept _).trans (countsKept_foldl (fun _ k => moveSeat_countsKept k _ _) seatIds _)).works
    (works_postBoth _)

/-! ### Sensors, keys and the panel -/

theorem vacate_countsKept (k : Fin 4) : CountsKept s (s.vacate k) :=
  (countsKept_setQueue k []).trans (enterState_countsKept k _ _ _)

theorem faultSeat_countsKept (k : Fin 4) {c : Cause} (hc : c.isFault = true) : CountsKept s (s.faultSeat k c) :=
  countsKept_works (works_faultSeat k c hc trivial fun _ _ => trivial)

theorem settleSensor_countsKept (k : Fin 4) (x : Sensor) : CountsKept s (s.settleSensor k x) := countsKept_setRecord k _

theorem presentChanged_countsKept (k : Fin 4) : CountsKept s (s.presentChanged k) := by
  unfold State.presentChanged
  split
  case h_1 => exact enterState_countsKept k _ _ _
  case h_2 => exact vacate_countsKept k
  case h_3 | h_4 | h_5 | h_6 | h_7 => exact faultSeat_countsKept k rfl
  case h_8 => exact .refl s

theorem confirmChanged_countsKept (k : Fin 4) : CountsKept s (s.confirmChanged k) := by
  unfold State.confirmChanged
  split
  case h_1 => exact enterState_countsKept k _ _ _
  case h_2 | h_3 | h_4 | h_5 => exact faultSeat_countsKept k rfl
  case h_6 => exact countsKept_ite (enterState_countsKept k _ _ _) (vacate_countsKept k)
  case h_7 => exact .refl s

theorem tripChanged_countsKept (k : Fin 4) : CountsKept s (s.tripChanged k) := by
  unfold State.tripChanged
  split
  case h_1 | h_2 | h_3 => exact faultSeat_countsKept k rfl
  case h_4 => exact .refl s

/-- A debounced level is recorded, and after the load the seat or the panel follows it (R22). -/
theorem afterLoad_countsKept (ht : CountsKept s t) (hu : CountsKept t u) : CountsKept s (t.afterLoad u) :=
  countsKept_ite (ht.trans hu) ht

theorem keyPressed_countsKept (k : Fin 4) (a : YesNo) : CountsKept s (s.keyPressed k a) :=
  countsKept_ite
    (countsKept_works ((works_closePrompt k trivial).trans (works_deliverPrompt k _ trivial fun _ _ => trivial)))
    (countsKept_works (works_postSeat k _))

theorem stopPressed_countsKept : CountsKept s s.stopPressed :=
  countsKept_takeInOpenOrder (f := stopOne) (fun _ k =>
    countsKept_ite (countsKept_works ((works_haltSeat k .stopKey trivial).arbitrated fun _ _ => trivial)) (.refl _)) _

theorem setPanelMode_countsKept (d : Display) (a : AllPoints) : CountsKept s (s.setPanelMode d a) := by
  obtain ⟨_, hl, -⟩ := leaveSaver_eq { s with panel := { s.panel with display := d, allPoints := a } }
  unfold State.setPanelMode
  dsimp only
  rw [hl]
  have hpanel : ∀ x : Panel, CountsKept s { s with panel := x } := fun x =>
    countsKept_of_uses (fun _ => rfl) (fun _ => rfl) (fun _ => rfl) (fun _ => rfl)
  exact countsKept_ite (countsKept_ite (hpanel _) (hpanel _)) (countsKept_ite (hpanel _) (hpanel _))

theorem writePanel_countsKept (bs : List Byte) : CountsKept s (s.writePanel p bs) :=
  countsKept_of_uses (by simp [State.writePanel]) (by simp [State.writePanel]) (by simp [State.writePanel])
    (by simp [State.writePanel])

/-! ### Channels, frames, samples and stores -/

theorem takeRefusal_countsKept {r : State × Bool} (c : Fin 8) (h : CountsKept s r.1) :
    CountsKept s (takeRefusal r c) :=
  countsKept_ite (h.works (works_handleRefusal c (fun _ _ => trivial) fun _ _ => trivial)) h

theorem takeRefusal?_countsKept {r : State × Option (Fin 8)} (h : CountsKept s r.1) :
    CountsKept s (takeRefusal? r) := by
  unfold takeRefusal?
  split
  · exact h
  · exact h.works (works_handleRefusal _ (fun _ _ => trivial) fun _ _ => trivial)

theorem frameReceived_countsKept (k : Fin 4) (ident : BitVec 11) (data : List Byte) :
    CountsKept s ((s.examineFrame k ident data).storeFrame k ident data) := by
  have hexamined : CountsKept s (s.examineFrame k ident data) := by
    unfold State.examineFrame
    dsimp only
    split
    · exact countsKept_setCapture k _
    · exact (countsKept_setCapture k _).works (works_deliverExpect k _ trivial fun _ _ => trivial)
  exact hexamined.trans (countsKept_setCapture k _)

/-- A sample frees no slot and leaves its limit (R121). -/
theorem takeSample_binding (x : MeasSlot) (l : Limit) (c : Int) (hx : x.state ≠ .free) :
    (x.takeSample l c).limit = x.limit ∧ (x.takeSample l c).state ≠ .free := by
  unfold MeasSlot.takeSample
  dsimp only
  split
  · split
    · exact ⟨rfl, by simp [MeasSlot.latch]⟩
    · exact ⟨rfl, hx⟩
  · exact ⟨rfl, hx⟩
  · exact ⟨rfl, hx⟩

theorem works_passSample (m : Fin 6) (input : Fin 32) (raw : BitVec 12) (hm : (s.slot m).state ≠ .free) :
    Works (fun _ => True) s (s.passSample m input raw) := by
  unfold State.passSample
  split
  · next l k i _ _ _ =>
    obtain ⟨hlimit, hstate⟩ := takeSample_binding { s.slot m with samples := (s.slot m).samples + 1 } l
      (calibrate raw (s.cal input)) hm
    have hslot := works_setSlot (T := fun _ => True) m _ hlimit (iff_of_false hstate hm)
    exact Works.ite (fun _ => hslot.trans (works_deliverMeas k i _ trivial fun _ _ => trivial)) (fun _ => hslot)
  · exact .refl _ s

theorem works_completeConversion : Works (fun _ => True) s s.completeConversion := by
  unfold State.completeConversion
  split
  · exact .refl _ s
  · next m b input _ raw _ =>
    dsimp only
    refine Works.trans (t := if (s.slot m).samplesUnder b then s.passSample m input raw else s)
      (Works.ite (fun h => works_passSample m input raw ?_) fun _ => .refl _ s) ?_
    · intro hfree
      simp [MeasSlot.samplesUnder, hfree] at h
    · exact (works_converter _ .idle).trans works_converterArbiter

theorem endStore_countsKept (x : StoreOp) (acc : StoreAccepted) : CountsKept s (s.endStore x acc) := by
  have hstored : CountsKept s (({ s with eeprom := storedWords s.eeprom x acc } : State).setStore none) :=
    countsKept_of_uses (fun _ => rfl) (fun _ => rfl) (fun _ => rfl) (fun _ => rfl)
  exact hstored.trans (countsKept_setPort _ _)

theorem flush_countsKept (k : Fin 4) : CountsKept s (s.flush k) := by
  have hq : CountsKept s (s.setQueue k []) := countsKept_setQueue k []
  exact countsKept_ite (hq.works ((works_leaveFor k .powered _ trivial (by decide) rfl).arbitrated fun _ _ => trivial)) hq

theorem clearResults_countsKept (k : Fin 4) : CountsKept s (s.clearResults k) :=
  (countsKept_setResults k _).trans (countsKept_setRecord k _)

theorem clamp_countsKept (k : Fin 4) : CountsKept s (s.clamp k).1 := by
  unfold State.clamp
  split <;> exact enterState_countsKept k _ _ _

theorem setLampMode_countsKept (k : Fin 4) (m : LampMode) : CountsKept s (s.setLampMode k m) :=
  (countsKept_setLamp k _).works (works_relamp k _)

/-- SET_SHADOW changes a channel's shadow alone (R80). -/
theorem countsKept_setShadow (c : Fin 8) (a : Option PatternAddr) :
    CountsKept s (s.setChannel c { s.channel c with shadow := a }) := countsKept_works (works_editChannel c _ rfl rfl)

theorem enterTesting_countsKept (k : Fin 4) : CountsKept s (s.enterTesting k) :=
  countsKept_works (works_enterTesting k trivial fun _ _ => trivial)

/-! ### Every command and every event -/

/-- Every command and every event keeps the use counts. -/
theorem exec_countsKept (c : Instr) (he : exec c s = .next t) : CountsKept s t := by
  cases c with
  | status p ps =>
    change execStatus p ps s = _ at he
    unfold execStatus at he
    split at he
    · injection he with he; exact he ▸ .refl s
    · split at he <;> (injection he with he; subst he)
      · exact countsKept_setPort _ _
      · exact (countsKept_setPort _ _).trans (countsKept_setPort _ _)
  | unknownCommand p code ps =>
    change execUnknownCommand p code ps s = _ at he
    unfold execUnknownCommand at he
    split at he <;> (injection he with he; subst he)
    · exact .refl s
    · exact countsKept_setPort _ _
  | linkTransactionDiscarded p bytes =>
    change execLinkTransactionDiscarded p bytes s = _ at he
    unfold execLinkTransactionDiscarded at he
    split at he <;> (injection he with he; subst he)
    · exact .refl s
    · exact countsKept_setPort _ _
  | portResetInput p =>
    have hactive : CountsKept s (s.setResetActive p true) := countsKept_setPort p _
    change execPortResetInput p s = _ at he
    unfold execPortResetInput at he
    split at he <;> (injection he with he; subst he)
    · exact hactive
    · exact hactive.trans (countsKept_setPort _ _)
    · exact hactive.trans (portReset_countsKept p)
  -- commands that only read
  | readSeat p ps | readStepState p ps | readSnapshot p ps | readPattern p ps | readRegions p ps | readProgram p ps
  | readChannel p ps | readOutputs p ps | readFrameSlot p ps | readCalibration p ps | readSlot p ps | readLimit p ps
  | readPanelState p ps | readResult p ps | readSummary p ps => exact command_countsKept he fun _ => .refl s
  -- ports and the panel
  | readNotice p ps | setNoticeLevel p ps | setThreshold p ps => exact command_countsKept he fun _ => countsKept_setPort _ _
  | portReset p ps => exact command_countsKept he fun _ => done_countsKept (portReset_countsKept p)
  | setCursor p ps | rmwBegin p ps | rmwEnd p ps =>
    exact command_countsKept he fun _ => require_countsKept (countsKept_setCursor _ _)
  | readPanel p ps => exact command_countsKept he fun _ => countsKept_setCursor _ _
  | writePanel p ps =>
    exact command_countsKept he fun _ => require_countsKept
      (require_countsKept (done_countsKept (writePanel_countsKept _)))
  | panelOn p ps | panelOff p ps | allPointsNormal p ps | allPointsForced p ps =>
    exact command_countsKept he fun _ => done_countsKept (setPanelMode_countsKept _ _)
  | setLamp p ps =>
    exact ownerCommand_countsKept he fun x => done_countsKept (setLampMode_countsKept x.1 x.2)
  -- seats
  | claimSeat p ps => exact command_countsKept he fun _ => require_countsKept (countsKept_setRecord _ _)
  | releaseSeat p ps => exact ownerCommand_countsKept he fun _ => require_countsKept (countsKept_setRecord _ _)
  | clamp p ps =>
    exact ownerCommand_countsKept he fun k => require_countsKept (require_countsKept (clamp_countsKept k))
  | unclamp p ps =>
    exact ownerCommand_countsKept he fun k => require_countsKept (accepted_countsKept (enterState_countsKept k _ _ _))
  | powerOn p ps =>
    exact ownerCommand_countsKept he fun k => require_countsKept (done_countsKept (enterState_countsKept k _ _ _))
  | powerOff p ps =>
    exact ownerCommand_countsKept he fun k => require_countsKept
      (done_countsKept ((countsKept_works (works_restOutputs k)).trans (enterState_countsKept k _ _ _)))
  | start p ps | resume p ps =>
    exact ownerCommand_countsKept he fun k => require_countsKept (done_countsKept (enterTesting_countsKept k))
  | stopSeat p ps =>
    exact ownerCommand_countsKept he fun k => require_countsKept
      (done_countsKept (countsKept_works ((works_haltSeat k .stopSeat trivial).arbitrated fun _ _ => trivial)))
  | clearFault p ps =>
    exact command_countsKept he fun k => ifOwnerOrFree_countsKept
      (require_countsKept (done_countsKept (enterState_countsKept k _ _ _)))
  | clearResults p ps =>
    exact command_countsKept he fun k => ifOwnerOrFree_countsKept
      (require_countsKept (doneWith_countsKept (clearResults_countsKept k) _))
  | setSerial p ps =>
    exact ownerCommand_countsKept he fun _ => require_countsKept (require_countsKept (countsKept_setRecord _ _))
  -- steps, patterns and the tables
  | queueStep p ps =>
    exact ownerCommand_countsKept he fun _ => require_countsKept (require_countsKept (countsKept_setQueue _ _))
  | flushQueue p ps => exact ownerCommand_countsKept he fun k => doneWith_countsKept (flush_countsKept k) _
  | abortStep p ps =>
    exact ownerCommand_countsKept he fun x => require_countsKept
      (done_countsKept (countsKept_works (works_abortByPolicy x.1 .stationAbort trivial fun _ _ => trivial)))
  | takeRegion p ps =>
    refine command_countsKept he fun r => ?_
    split
    · exact countsKept_setGrant r _
    · exact require_countsKept (.refl s)
  | shareRegion p ps | dropRegion p ps => exact command_countsKept he fun r => require_countsKept (countsKept_setGrant r _)
  | writePattern p ps =>
    exact command_countsKept he fun _ => require_countsKept
      (countsKept_of_uses (fun _ => rfl) (fun _ => rfl) (fun _ => rfl) (fun _ => rfl))
  | writeProgram p ps | eraseProgram p ps =>
    exact command_countsKept he fun _ => require_countsKept (countsKept_setProgram _ _)
  | writeLimit p ps | eraseLimit p ps =>
    exact command_countsKept he fun _ => require_countsKept (countsKept_setLimit _ _)
  | setShadow p ps => exact ownerCommand_countsKept he fun _ => require_countsKept (countsKept_setShadow _ _)
  | setOutput p ps =>
    exact ownerCommand_countsKept he fun _ => require_countsKept (require_countsKept
      (countsKept_works (works_setOutputs _ _)))
  | setFrameSlot p ps => exact ownerCommand_countsKept he fun _ => countsKept_works (works_setFrame _ _ _)
  | setCalibration p ps =>
    exact command_countsKept he fun _ => countsKept_of_uses (fun _ => rfl) (fun _ => rfl) (fun _ => rfl) (fun _ => rfl)
  | storeCalibration p ps =>
    exact command_countsKept he fun _ => require_countsKept
      (countsKept_of_uses (fun _ => rfl) (fun _ => rfl) (fun _ => rfl) (fun _ => rfl))
  | setFilter p ps | setAcceptLong p ps | flushCapture p ps =>
    exact ownerCommand_countsKept he fun _ => countsKept_setCapture _ _
  | readCapture p ps | captureStatus p ps => exact command_countsKept he fun _ => countsKept_setCapture _ _
  -- events
  | sensorRawChange k x active => injection he with he; exact he ▸ countsKept_setRecord _ _
  | keyRawChange key active => injection he with he; exact he ▸ countsKept_setKey _ _
  | portResetRelease p => injection he with he; exact he ▸ countsKept_setPort _ _
  | coldReset acc => injection he with he; exact he ▸ coldReset_countsKept acc
  | presentLevelChange k =>
    exact whenDue_countsKept he (afterLoad_countsKept (settleSensor_countsKept k _) (presentChanged_countsKept k))
  | confirmLevelChange k =>
    exact whenDue_countsKept he (afterLoad_countsKept (settleSensor_countsKept k _) (confirmChanged_countsKept k))
  | tripLevelChange k =>
    exact whenDue_countsKept he (afterLoad_countsKept (settleSensor_countsKept k _) (tripChanged_countsKept k))
  | keyPress k key =>
    exact whenDue_countsKept he (afterLoad_countsKept (countsKept_setKey _ _) (keyPressed_countsKept k key))
  | stopKeyPress =>
    exact whenDue_countsKept he (afterLoad_countsKept (countsKept_setKey _ _) stopPressed_countsKept)
  | keyRelease key => exact whenDue_countsKept he (countsKept_setKey _ _)
  | clampTimerExpiry k | unclampTimerExpiry k => exact whenDue_countsKept he (faultSeat_countsKept k rfl)
  | windowExpiry k =>
    exact whenDue_countsKept he (countsKept_works (works_expireWindow k trivial fun _ _ => trivial))
  | timerTrigger c =>
    exact whenDue_countsKept he (takeRefusal_countsKept c (countsKept_works (works_takeTimer c)))
  | channelMove c => exact whenDue_countsKept he (takeRefusal_countsKept c (countsKept_works (works_moveOnce c)))
  | frameSlotDue k f =>
    exact whenDue_countsKept he (takeRefusal?_countsKept
      (countsKept_works ((works_setFrame k f _).trans (works_transmitArbiter k))))
  | transmissionComplete k ack =>
    change execTransmissionComplete k ack s = _ at he
    unfold execTransmissionComplete at he
    split at he <;> (injection he with he; subst he)
    · exact .refl s
    · exact takeRefusal?_countsKept
        (countsKept_works ((works_endTransmission k _ ack).trans (works_transmitArbiter k)))
  | frameReceived k ident data => exact whenDue_countsKept he (frameReceived_countsKept k ident data)
  | gateTimeReached m => exact whenDue_countsKept he (countsKept_works (works_openGate m))
  | slotDue m =>
    have hdue : Works (fun _ => True) s (s.setSlot m { s.slot m with due := true }) := works_setSlot m _ rfl Iff.rfl
    exact whenDue_countsKept he (countsKept_works (hdue.trans works_converterArbiter))
  | conversionComplete m => exact whenDue_countsKept he (countsKept_works works_completeConversion)
  | storeEnd acc =>
    change execStoreEnd acc s = _ at he
    unfold execStoreEnd at he
    split at he
    · injection he with he; exact he ▸ .refl s
    · exact whenDue_countsKept he (endStore_countsKept _ acc)
  | loadEnd answers => exact whenDue_countsKept he (endLoad_countsKept answers)
  | rackResetRelease =>
    exact whenDue_countsKept he (countsKept_of_uses (fun _ => rfl) (fun _ => rfl) (fun _ => rfl) (fun _ => rfl))

/-! ### Time -/

theorem tickSeat_countsKept (s : State) (k : Fin 4) : CountsKept s (tickLamp (tickOutputs s k) k) := by
  have houtputs : CountsKept s (tickOutputs s k) := countsKept_works (works_setOutputs k _)
  unfold tickLamp
  split
  · exact houtputs
  · exact houtputs.trans (countsKept_setLamp k _)

theorem tick_countsKept : CountsKept s s.tick := by
  have hticked := countsKept_foldl tickSeat_countsKept seatIds s
  unfold State.tick
  generalize seatIds.foldl (fun x k => tickLamp (tickOutputs x k) k) s = u at hticked ⊢
  exact hticked.trans (countsKept_of_uses (fun _ => rfl) (fun _ => rfl) (fun _ => rfl) (fun _ => rfl))

theorem advanceTime_countsKept : CountsKept s s.advanceTime := by
  have hpins : CountsKept s s.drivePins :=
    countsKept_of_uses (fun _ => rfl) (fun _ => rfl) (fun _ => rfl) (fun _ => rfl)
  exact countsKept_ite hpins (hpins.trans tick_countsKept)

/-- A step is a command, a due event, or a microsecond, and each keeps the use counts. -/
theorem step_countsKept (hstep : step s = .next t) : CountsKept s t := by
  have hsame : ∀ (cs : List Instr) (n : Nat), CountsKept s { s with pending := cs, draws := n } := fun _ _ =>
    countsKept_of_uses (fun _ => rfl) (fun _ => rfl) (fun _ => rfl) (fun _ => rfl)
  unfold step at hstep
  split at hstep
  · unfold idle at hstep
    split at hstep
    · injection hstep with hstep
      exact hstep ▸ advanceTime_countsKept
    · exact (hsame _ _).trans (exec_countsKept _ hstep)
  · next c rest _ => exact (hsame rest _).trans (exec_countsKept c hstep)

/-- Settles O5: a step keeps both counts. -/
theorem stepKeepsUseCounts : Obligations.StepKeepsUseCounts :=
  ⟨fun _ _ h hstep => (step_countsKept hstep).programs h, fun _ _ h hstep => (step_countsKept hstep).limits h⟩

end Steps
end Machine
end Sys2Proof
end

section
/-! The program and limit tables and the shadow of a channel (R63, R64, R80, R118, R119). -/

namespace Sys2Proof
namespace Machine
namespace Steps

variable {s : State} {p : Port} {k : Fin 4} {c : Fin 8} {lo hi : Byte}

/-! ### A command refused unless its entry is unused -/

/-- A command whose one further condition decides between its effect and IN_USE (R178). -/
theorem command_unlessUsed (h : s.takes p) (n : Nat) (t u : State) (htu : n = 0 → t = u) :
    command p s (require s (n = 0) .inUse (done t)) =
      if n = 0 then answered u p .ok [] else answered s p .inUse [] := by
  by_cases hn : n = 0
  · rw [if_pos hn, decide_eq_true hn, require_true, htu hn]
    exact command_taken_pair h _ _ _
  · rw [if_neg hn, decide_eq_false hn, require_false]
    exact command_taken_pair h _ _ _

/-! ### Programs (R63, R64) -/

theorem programEntry_unused {i : Fin 48} (h : (s.program i).uses = 0) (x : Option Program) :
    s.setProgram i { s.program i with program := x } = s.setProgram i { program := x, uses := 0 } := by simp only [h]

theorem exec_writeProgram_badParam {ps : List Byte} (h : s.takes p) (harg : writeProgramArg ps = none) :
    exec (.writeProgram p ps) s = answered s p .badParam [] := by
  change command p s (withArg s (writeProgramArg ps) _) = _
  rw [harg, withArg_none]
  exact command_taken_pair h _ _ _

theorem exec_writeProgram {ps : List Byte} {i : Fin 48} {x : Program} (h : s.takes p)
    (harg : writeProgramArg ps = some (i, x)) : exec (.writeProgram p ps) s =
      if (s.program i).uses = 0 then answered (s.setProgram i { program := some x, uses := 0 }) p .ok []
      else answered s p .inUse [] := by
  change command p s (withArg s (writeProgramArg ps) _) = _
  rw [harg, withArg_some]
  exact command_unlessUsed h _ _ _ fun hu => programEntry_unused hu _

theorem exec_eraseProgram (h : s.takes p) (i : Fin 48) : exec (.eraseProgram p [byteOf i.val]) s =
    if (s.program i).uses = 0 then answered (s.setProgram i { program := none, uses := 0 }) p .ok []
    else answered s p .inUse [] := by
  change command p s (withArg s (indexArg 48 [byteOf i.val]) _) = _
  rw [indexArg_byteOf (by decide), withArg_some]
  exact command_unlessUsed h _ _ _ fun hu => programEntry_unused hu _

/-! ### Limits (R118, R119) -/

theorem limitEntry_unused {i : Fin 256} (h : (s.limit i).uses = 0) (x : Option Limit) :
    s.setLimit i { s.limit i with limit := x } = s.setLimit i { limit := x, uses := 0 } := by simp only [h]

theorem exec_writeLimit_badParam {ps : List Byte} (h : s.takes p) (harg : writeLimitArg ps = none) :
    exec (.writeLimit p ps) s = answered s p .badParam [] := by
  change command p s (withArg s (writeLimitArg ps) _) = _
  rw [harg, withArg_none]
  exact command_taken_pair h _ _ _

theorem exec_writeLimit {ps : List Byte} {i : Fin 256} {x : Limit} (h : s.takes p)
    (harg : writeLimitArg ps = some (i, x)) : exec (.writeLimit p ps) s =
      if (s.limit i).uses = 0 then answered (s.setLimit i { limit := some x, uses := 0 }) p .ok []
      else answered s p .inUse [] := by
  change command p s (withArg s (writeLimitArg ps) _) = _
  rw [harg, withArg_some]
  exact command_unlessUsed h _ _ _ fun hu => limitEntry_unused hu _

theorem exec_eraseLimit (h : s.takes p) (i : Fin 256) : exec (.eraseLimit p [byteOf i.val]) s =
    if (s.limit i).uses = 0 then answered (s.setLimit i { limit := none, uses := 0 }) p .ok []
    else answered s p .inUse [] := by
  change command p s (withArg s (indexArg 256 [byteOf i.val]) _) = _
  rw [indexArg_byteOf (by decide), withArg_some]
  exact command_unlessUsed h _ _ _ fun hu => limitEntry_unused hu _

/-! ### SET_SHADOW (R80) -/

theorem setShadowArg_given (k : Fin 4) (c : Fin 8) (lo hi : Byte) : setShadowArg [byteOf k.val, byteOf c.val, 1, lo, hi] =
    (addrArg lo hi).map fun a => (k, c, some a) := by
  simp only [setShadowArg, finArg_byteOf (by decide : 4 ≤ 256), finArg_byteOf (by decide : 8 ≤ 256),
    show flagArg 1 = some true from rfl]
  cases addrArg lo hi <;> rfl

/-- The value bytes beside an absent address are not looked at (log entry 17). -/
theorem setShadowArg_absent (k : Fin 4) (c : Fin 8) (lo hi : Byte) :
    setShadowArg [byteOf k.val, byteOf c.val, 0, lo, hi] = some (k, c, none) := by
  simp only [setShadowArg, finArg_byteOf (by decide : 4 ≤ 256), finArg_byteOf (by decide : 8 ≤ 256),
    show flagArg 0 = some false from rfl]

theorem onSeat_iff (ch : Channel) (k : Fin 4) : ch.onSeat k = true ↔ ch.state ≠ .free ∧ ch.seat = some k := by
  simp [Channel.onSeat]

/-- SET_SHADOW from the owner: taken on a channel bound to the seat, refused WRONG_STATE on any other. -/
theorem exec_setShadow {ps : List Byte} {a : Option PatternAddr} (h : s.takes p) (ho : (s.record k).owner = some p)
    (harg : setShadowArg ps = some (k, c, a)) : exec (.setShadow p ps) s =
      if (s.channel c).state ≠ .free ∧ (s.channel c).seat = some k then
        answered (s.setChannel c { s.channel c with shadow := a }) p .ok []
      else answered s p .wrongState [] := by
  change command p s (withArg s (setShadowArg ps) _) = _
  rw [harg, withArg_some, ifOwner_owner ho]
  cases hon : (s.channel c).onSeat k with
  | true =>
    rw [if_pos ((onSeat_iff _ k).mp hon), require_true]
    exact command_taken_pair h _ _ _
  | false =>
    rw [if_neg fun hb => Bool.noConfusion (hon.symm.trans ((onSeat_iff _ k).mpr hb)), require_false]
    exact command_taken_pair h _ _ _

theorem exec_setShadow_badParam {ps : List Byte} (h : s.takes p) (harg : setShadowArg ps = none) :
    exec (.setShadow p ps) s = answered s p .badParam [] := by
  change command p s (withArg s (setShadowArg ps) _) = _
  rw [harg, withArg_none]
  exact command_taken_pair h _ _ _

theorem setShadowArg_inside (h : (word16 lo hi).toNat < 16384) : setShadowArg [byteOf k.val, byteOf c.val, 1, lo, hi] =
    some (k, c, some ((word16 lo hi).setWidth 14)) := by
  rw [setShadowArg_given, show addrArg lo hi = some ((word16 lo hi).setWidth 14) from if_pos h]
  rfl

/-- Settles O39, table by table; a shadow is taken or refused by the state and the seat of its channel. -/
theorem tableAndShadowCommands : Obligations.TableAndShadowCommands := by
  refine ⟨fun p s h => ⟨fun _ => exec_writeProgram_badParam h, fun _ _ _ => exec_writeProgram h, exec_eraseProgram h⟩,
    fun p s h => ⟨fun _ => exec_writeLimit_badParam h, fun _ _ _ => exec_writeLimit h, exec_eraseLimit h⟩,
    fun p k c lo hi s h ho => ⟨fun hbound hseat => ?_, fun hother => ?_, fun hout => ?_⟩⟩
  · have htaken : (s.channel c).state ≠ .free ∧ (s.channel c).seat = some k := ⟨hbound, hseat⟩
    exact ⟨fun hin => (exec_setShadow h ho (setShadowArg_inside hin)).trans (if_pos htaken),
      (exec_setShadow h ho (setShadowArg_absent k c lo hi)).trans (if_pos htaken)⟩
  · have hrefused : ¬ ((s.channel c).state ≠ .free ∧ (s.channel c).seat = some k) := fun hb =>
      hother.elim hb.1 (fun hs => hs hb.2)
    exact ⟨(exec_setShadow h ho (setShadowArg_absent k c lo hi)).trans (if_neg hrefused),
      fun hin => (exec_setShadow h ho (setShadowArg_inside hin)).trans (if_neg hrefused)⟩
  · exact exec_setShadow_badParam h (by rw [setShadowArg_given, addrArg_outside hout]; rfl)

end Steps
end Machine
end Sys2Proof
end

section
/-! The walk of a channel's address (R75). -/

namespace Sys2Proof
namespace Machine
namespace Steps

/-- The offset in its block that an address of offset `o` walks to, in blocks of `size` words (R75). -/
def walkedOffset (d : Direction) (size step o : Nat) : Nat :=
  match d with
  | .up => (o + step) % size
  | .down => (o + (size - step % size)) % size

theorem walkedOffset_lt {size : Nat} (h : 0 < size) (d : Direction) (step o : Nat) : walkedOffset d size step o < size := by
  cases d <;> exact Nat.mod_lt _ h

/-- Stepping down and then up by the same step comes back. -/
theorem walkedOffset_down_add {size : Nat} (h : 0 < size) (step o : Nat) :
    (walkedOffset .down size step o + step) % size = o % size := by
  have hle : step % size ≤ size := (Nat.mod_lt step h).le
  calc (walkedOffset .down size step o + step) % size
      = (o + (size - step % size) + step % size) % size := by simp [walkedOffset, Nat.add_mod]
    _ = (o + size) % size := by rw [Nat.add_assoc, Nat.sub_add_cancel hle]
    _ = o % size := Nat.add_mod_right o size

/-- A step of whole blocks leaves the offset. -/
theorem walkedOffset_of_dvd {size step o : Nat} (hstep : size ∣ step) (ho : o < size) (d : Direction) :
    walkedOffset d size step o = o := by
  cases d with
  | up => simp [walkedOffset, Nat.add_mod, Nat.mod_eq_zero_of_dvd hstep, Nat.mod_eq_of_lt ho]
  | down => simp [walkedOffset, Nat.mod_eq_zero_of_dvd hstep, Nat.mod_eq_of_lt ho]

/-- The walked address: the base of its block, and the walked offset. -/
theorem advance_toNat {p : Program} (hw : p.wrap ≤ 14) (a : PatternAddr) : (advance p a).toNat =
    2 ^ p.wrap * (a.toNat / 2 ^ p.wrap) + walkedOffset p.direction (2 ^ p.wrap) p.step (a.toNat % 2 ^ p.wrap) := by
  have hpos : 0 < 2 ^ p.wrap := Nat.two_pow_pos _
  have hoffset := walkedOffset_lt hpos p.direction p.step (a.toNat % 2 ^ p.wrap)
  have hbase : a.toNat - a.toNat % 2 ^ p.wrap = 2 ^ p.wrap * (a.toNat / 2 ^ p.wrap) := by
    have := Nat.div_add_mod a.toNat (2 ^ p.wrap)
    omega
  have hblocks : 2 ^ p.wrap * (a.toNat / 2 ^ p.wrap) + 2 ^ p.wrap ≤ 2 ^ 14 := by
    obtain ⟨n, hn⟩ := Nat.pow_dvd_pow 2 hw
    have hlt : a.toNat / 2 ^ p.wrap < n := Nat.div_lt_of_lt_mul (hn ▸ a.isLt)
    calc 2 ^ p.wrap * (a.toNat / 2 ^ p.wrap) + 2 ^ p.wrap = 2 ^ p.wrap * (a.toNat / 2 ^ p.wrap + 1) := by ring
      _ ≤ 2 ^ p.wrap * n := Nat.mul_le_mul_left _ hlt
      _ = 2 ^ 14 := hn.symm
  have hform : advance p a = BitVec.ofNat 14 (2 ^ p.wrap * (a.toNat / 2 ^ p.wrap) +
      walkedOffset p.direction (2 ^ p.wrap) p.step (a.toNat % 2 ^ p.wrap)) := by
    rw [← hbase]
    unfold advance walkedOffset
    cases p.direction <;> rfl
  rw [hform, BitVec.toNat_ofNat]
  exact Nat.mod_eq_of_lt (by omega)

/-- Settles O40: the block of the address stays, and its offset walks modulo the block. -/
theorem addressWalksItsBlock : Obligations.AddressWalksItsBlock := by
  intro p a hw
  have hpos : 0 < 2 ^ p.wrap := Nat.two_pow_pos _
  have hlt := walkedOffset_lt hpos p.direction p.step (a.toNat % 2 ^ p.wrap)
  have hmod : (advance p a).toNat % 2 ^ p.wrap =
      walkedOffset p.direction (2 ^ p.wrap) p.step (a.toNat % 2 ^ p.wrap) := by
    rw [advance_toNat hw, Nat.mul_add_mod, Nat.mod_eq_of_lt hlt]
  refine ⟨?_, fun hup => ?_, fun hdown => ?_, fun hstep => ?_⟩
  · rw [advance_toNat hw, Nat.mul_add_div hpos, Nat.div_eq_of_lt hlt, Nat.add_zero]
  · rw [hmod, hup]
    rfl
  · rw [hmod, hdown, walkedOffset_down_add hpos, Nat.mod_mod]
  · refine BitVec.eq_of_toNat_eq ?_
    rw [advance_toNat hw, walkedOffset_of_dvd hstep (Nat.mod_lt _ hpos)]
    exact Nat.div_add_mod _ _

end Steps
end Machine
end Sys2Proof
end

section
/-! Triggers (R70, R71): what an idle channel is asked for, and the trigger of a TIMER channel. -/

namespace Sys2Proof
namespace Machine
namespace Steps

variable {s : State} {c d : Fin 8} {k : Fin 4} {p : Program}

/-! ### What a trigger asks for (R70) -/

/-- A channel asked for a block of block size `b`. -/
def asked (ch : Channel) (b : Nat) : Channel :=
  { ch with state := .running, outstanding := min b ch.remaining, made := 0 }

theorem takesTrigger_iff (ch : Channel) : ch.takesTrigger = true ↔
    (ch.state = .armed ∨ ch.state = .running) ∧ ch.outstanding = 0 := by
  simp [Channel.takesTrigger]

theorem not_takesTrigger {ch : Channel} (h : ch.state = .free ∨ ch.state = .done ∨ ch.outstanding ≠ 0) :
    ch.takesTrigger = false := by
  rcases h with h | h | h <;> simp [Channel.takesTrigger, h]

theorem request_taken {ch : Channel} (h : ch.takesTrigger = true) (b : Nat) : ch.request b = asked ch b := if_pos h

theorem request_ignored {ch : Channel} (h : ch.takesTrigger = false) (b : Nat) : ch.request b = ch := by
  simp [Channel.request, h]

@[simp] theorem setChannel_self (s : State) (c : Fin 8) : s.setChannel c (s.channel c) = s := by
  simp [State.setChannel, State.channel]

theorem trigger_taken (hp : s.channelProgram c = some p) (h : (s.channel c).takesTrigger = true) :
    s.trigger c = s.setChannel c (asked (s.channel c) p.block) := by
  unfold State.trigger
  rw [hp, ← request_taken h]

theorem trigger_ignored (h : (s.channel c).takesTrigger = false) : s.trigger c = s := by
  unfold State.trigger
  split
  · rfl
  · rw [request_ignored h, setChannel_self]

/-! ### The trigger of a TIMER channel (R71) -/

theorem rearm_eq {ch : Channel} {period : Nat} {t0 : RackTime} (htrigger : ch.trigger = some (.timer period))
    (hnext : ch.nextTimer = some t0) : ch.rearm = { ch with nextTimer := some (msAfter t0 period) } := by
  simp only [Channel.rearm, htrigger, hnext]
  rfl

/-- A trigger that is taken makes the first move of its block with it, when the region is granted (log entry 10). -/
theorem triggerAndMove_granted {tg : Target} (h : (s.channel c).takesTrigger = true)
    (hseat : (s.channel c).seat = some k) (htarget : (s.channel c).target = some tg)
    (hp : s.channelProgram c = some p) (hg : s.moveGranted c k = true) :
    s.triggerAndMove c = ((s.setChannel c (asked (s.channel c) p.block)).makeMove c k tg p, false) := by
  have hmove : (s.setChannel c (asked (s.channel c) p.block)).moveOnce c =
      ((s.setChannel c (asked (s.channel c) p.block)).makeMove c k tg p, false) := by
    rw [moveOnce_eq (k := k) (x := tg) (p := p), moveGranted_setChannel (by rfl), hg, if_pos rfl]
    · rw [channel_setChannel_same]; exact fun e => nomatch e
    · rw [channel_setChannel_same]; exact hseat
    · rw [channel_setChannel_same]; exact htarget
    · rw [channelProgram_setChannel (by rfl)]; exact hp
  unfold State.triggerAndMove
  rw [if_pos h, trigger_taken hp h, hmove]
  rfl

theorem exec_timerTrigger {period : Nat} {t0 : RackTime} (hbound : (s.channel c).state ≠ .free)
    (htrigger : (s.channel c).trigger = some (.timer period)) (hnext : (s.channel c).nextTimer = some t0)
    (hdue : msReached s.now t0 = true) : exec (.timerTrigger c) s = .next (takeRefusal
      ((s.setChannel c { s.channel c with nextTimer := some (msAfter t0 period) }).triggerAndMove c) c) := by
  have hready : s.timerReady c = true := by simp [State.timerReady, hbound, hnext, hdue]
  change whenDue s (s.timerReady c) (takeRefusal (s.takeTimer c) c) = _
  rw [hready, whenDue_true, State.takeTimer, rearm_eq htrigger hnext]

/-- Settles O43: the next time is set first, and the trigger is ignored or taken on the record it leaves. -/
theorem timerTriggerIsTaken : Obligations.TimerTriggerIsTaken := by
  intro s c period t0 hbound htrigger hnext hdue
  rw [exec_timerTrigger hbound htrigger hnext hdue]
  refine ⟨fun hbusy => ?_, fun k tg p hstate hidle hseat htarget hp hg => ?_⟩
  · have hignored : ((s.setChannel c { s.channel c with nextTimer := some (msAfter t0 period) }).channel c).takesTrigger =
        false := by
      rw [channel_setChannel_same]
      exact not_takesTrigger (Or.inr hbusy)
    unfold State.triggerAndMove
    rw [hignored]
    rfl
  · have htakes : ((s.setChannel c { s.channel c with nextTimer := some (msAfter t0 period) }).channel c).takesTrigger =
        true := by
      rw [channel_setChannel_same]
      exact (takesTrigger_iff _).mpr ⟨hstate, hidle⟩
    have hmove := triggerAndMove_granted (k := k) (p := p) (tg := tg) htakes (by rw [channel_setChannel_same]; exact hseat)
      (by rw [channel_setChannel_same]; exact htarget) ((channelProgram_setChannel (by rfl)).trans hp)
      ((moveGranted_setChannel (by rfl)).trans hg)
    rw [hmove, channel_setChannel_same, setChannel_setChannel]
    rfl

end Steps
end Machine
end Sys2Proof
end

section
/-! The opening of gates by a mark (R77, R111): what it leaves alone, and which slots start sampling. -/

namespace Sys2Proof
namespace Machine
namespace Steps

variable {s : State} {c : Fin 8} {k : Fin 4}

/-! ### What the acquisition unit leaves alone -/

theorem converterArbiter_eq (s : State) : ∃ ms cv r, s.converterArbiter =
    { s with slots := ms, converter := cv, rotation := r } := by
  unfold State.converterArbiter
  split
  · exact ⟨_, _, _, rfl⟩
  · split
    · exact ⟨_, _, _, rfl⟩
    · unfold State.startConversion
      dsimp only
      split <;> exact ⟨_, _, _, rfl⟩

theorem openGate_eq (s : State) (m : Fin 6) : ∃ ms cv r, s.openGate m =
    { s with slots := ms, converter := cv, rotation := r } := by
  unfold State.openGate
  dsimp only
  split
  · obtain ⟨ms, cv, r, h⟩ := converterArbiter_eq (s.setSlot m { s.slot m with
      state := .sampling, gateTime := none, nextDue := some s.now, due := true })
    exact ⟨ms, cv, r, h⟩
  · exact ⟨_, _, _, rfl⟩

theorem foldl_openGate_eq (xs : List (Fin 6)) (s : State) : ∃ ms cv r, xs.foldl State.openGate s =
    { s with slots := ms, converter := cv, rotation := r } := by
  induction xs generalizing s with
  | nil => exact ⟨_, _, _, rfl⟩
  | cons m xs ih =>
    obtain ⟨ms, cv, r, h⟩ := openGate_eq s m
    obtain ⟨ms', cv', r', h'⟩ := ih (s.openGate m)
    exact ⟨ms', cv', r', by rw [List.foldl_cons, h', h]⟩

/-- An order the spec leaves open is some order of all of them, and uses up free values. -/
theorem takeInOpenOrder_eq {α : Type} (s : State) (xs : List α) (f : State → α → State) :
    ∃ (ys : List α) (n : Nat), ys.Perm xs ∧ s.takeInOpenOrder xs f = ys.foldl f { s with draws := n } := by
  unfold State.takeInOpenOrder
  split
  · exact ⟨[], s.draws, .refl _, rfl⟩
  · next x => exact ⟨[x], s.draws, .refl _, rfl⟩
  · exact ⟨_, _, inOpenOrder_perm s _, rfl⟩

theorem openMarked_eq (s : State) (c : Fin 8) (k : Fin 4) : ∃ n ms cv r, s.openMarked c k =
    { s with draws := n, slots := ms, converter := cv, rotation := r } := by
  unfold State.openMarked
  split
  · split
    · next e _ _ =>
      obtain ⟨ys, n, -, h⟩ := takeInOpenOrder_eq s (slotIds.filter fun m => (s.slot m).awaitsMark k e) State.openGate
      obtain ⟨ms, cv, r, h'⟩ := foldl_openGate_eq ys { s with draws := n }
      exact ⟨n, ms, cv, r, h.trans h'⟩
    · exact ⟨_, _, _, _, rfl⟩
  · exact ⟨_, _, _, _, rfl⟩

theorem raiseMark_eq (s : State) (c : Fin 8) (k : Fin 4) (p : Program) : ∃ n ms cv r a b, s.raiseMark c k p =
    { s with draws := n, slots := ms, converter := cv, rotation := r, portA := a, portB := b } := by
  obtain ⟨n, ms, cv, r, h⟩ := openMarked_eq s c k
  unfold State.raiseMark
  dsimp only
  split
  · obtain ⟨a, b, h'⟩ := postSeat_eq (s := s.openMarked c k) (k := k)
      ((s.openMarked c k).notice .mark (some k) ((s.openMarked c k).stepIdOf c k) 0 (some c.val))
    exact ⟨n, ms, cv, r, a, b, by rw [h', h]⟩
  · exact ⟨n, ms, cv, r, s.portA, s.portB, h⟩

/-! ### State and gate time of a slot (R111) -/

/-- The state and the gate time of a slot, which conversions leave alone. -/
def standing (x : MeasSlot) : SlotState × Option RackTime := (x.state, x.gateTime)

/-- State and gate time after an opening: SAMPLING without a gate time, unless the gate is not closed (R111). -/
def gateOpened (x : SlotState × Option RackTime) : SlotState × Option RackTime :=
  if x.1 = .gated then (.sampling, none) else x

theorem gateOpened_idem (x : SlotState × Option RackTime) : gateOpened (gateOpened x) = gateOpened x := by
  by_cases h : x.1 = .gated
  · simp [gateOpened, h]
  · simp [gateOpened, h]

theorem converterArbiter_standing (n : Fin 6) : standing (s.converterArbiter.slot n) = standing (s.slot n) := by
  obtain ⟨-, -, hslots⟩ := converterArbiter_keeps (s := s)
  obtain ⟨_, _, h⟩ := hslots n
  rw [h]
  rfl

theorem openGate_standing (m n : Fin 6) : standing ((s.openGate m).slot n) =
    if n = m then gateOpened (standing (s.slot n)) else standing (s.slot n) := by
  unfold State.openGate
  dsimp only
  by_cases hg : (s.slot m).state = .gated
  · rw [if_pos hg, converterArbiter_standing, slot_setSlot]
    split
    · next h => rw [h, gateOpened, if_pos (show (standing (s.slot m)).1 = .gated from hg)]; rfl
    · rfl
  · rw [if_neg hg]
    split
    · next h => rw [h, gateOpened, if_neg (show ¬ (standing (s.slot m)).1 = .gated from hg)]
    · rfl

theorem foldl_openGate_standing (xs : List (Fin 6)) (s : State) (n : Fin 6) :
    standing ((xs.foldl State.openGate s).slot n) =
      if n ∈ xs then gateOpened (standing (s.slot n)) else standing (s.slot n) := by
  induction xs generalizing s with
  | nil => simp
  | cons m xs ih =>
    rw [List.foldl_cons, ih, openGate_standing]
    by_cases hm : n = m
    · simp [hm, gateOpened_idem]
    · simp [hm]

theorem openMarkGates_standing (e : Fin 3) (n : Fin 6) : standing ((s.openMarkGates k e).slot n) =
    if (s.slot n).awaitsMark k e then gateOpened (standing (s.slot n)) else standing (s.slot n) := by
  obtain ⟨ys, d, hperm, h⟩ := takeInOpenOrder_eq s (slotIds.filter fun m => (s.slot m).awaitsMark k e) State.openGate
  have hmem : n ∈ ys ↔ (s.slot n).awaitsMark k e = true := by
    rw [hperm.mem_iff, List.mem_filter]
    exact and_iff_right (mem_slotIds n)
  unfold State.openMarkGates
  rw [h, foldl_openGate_standing]
  simp only [hmem]
  rfl

theorem awaitsMark_iff (x : MeasSlot) (k : Fin 4) (e : Fin 3) :
    x.awaitsMark k e = true ↔ x.state = .gated ∧ x.seat = some k ∧ x.gate = some (.mark e) := by
  simp [MeasSlot.awaitsMark, and_assoc]

theorem servesStep_iff (ch : Channel) (k : Fin 4) : ch.servesStep k = true ↔
    ch.state ≠ .free ∧ ch.seat = some k ∧ ch.entry ≠ none ∧ ch.kept = false := by
  simp [Channel.servesStep, Channel.onSeat, Option.isSome_iff_ne_none, and_assoc]

/-- The mark of a channel that serves entry `e` opens the gates that wait for it (R77). -/
theorem openMarked_opens {e : Fin 3} (hserves : (s.channel c).servesStep k = true) (he : (s.channel c).entry = some e)
    {n : Fin 6} (hn : (s.slot n).awaitsMark k e = true) : standing ((s.openMarked c k).slot n) = (.sampling, none) := by
  unfold State.openMarked
  simp only [he, hserves, if_true]
  rw [openMarkGates_standing, if_pos hn]
  exact if_pos ((awaitsMark_iff _ _ _).mp hn).1

/-- A slot that waits for no entry the channel serves stands as it did (R111). -/
theorem openMarked_stays {n : Fin 6} (hn : ∀ e, (s.channel c).entry = some e → (s.slot n).awaitsMark k e = false) :
    standing ((s.openMarked c k).slot n) = standing (s.slot n) := by
  unfold State.openMarked
  split
  · next e he =>
    split
    · rw [openMarkGates_standing, hn e he]
      rfl
    · rfl
  · rfl

/-- A channel that serves no entry of the running step opens no gate (R77). -/
theorem openMarked_unserved (h : (s.channel c).servesStep k = false) : s.openMarked c k = s := by
  unfold State.openMarked
  split
  · rw [h]
    rfl
  · rfl

/-! ### The notice of a mark (R78) -/

/-- The MARK notice of channel `c` of seat `k` (R78). -/
def markNotice (s : State) (c : Fin 8) (k : Fin 4) : Notice where
  kind := .mark
  level := 0
  seat := some k
  stepId := s.stepIdOf c k
  code := 0
  count := some c.val
  time := s.now

theorem stepIdOf_eq (hbound : (s.channel c).state ≠ .free) (hseat : (s.channel c).seat = some k) :
    s.stepIdOf c k = if (s.channel c).kept = true ∨ (s.channel c).entry = none then none
      else (s.seat k).running.map (fun r => r.step.id) := by
  unfold State.stepIdOf
  by_cases h : (s.channel c).kept = true ∨ (s.channel c).entry = none
  · have hserves : ¬ (s.channel c).servesStep k = true := fun hs => by
      obtain ⟨-, -, hentry, hkept⟩ := (servesStep_iff _ k).mp hs
      rcases h with h | h
      · rw [hkept] at h; cases h
      · exact hentry h
    rw [if_neg hserves, if_pos h]
  · have hserves : (s.channel c).servesStep k = true :=
      (servesStep_iff _ k).mpr ⟨hbound, hseat, fun e => h (Or.inr e), by simpa using fun e => h (Or.inl e)⟩
    rw [if_pos hserves, if_neg h]
    cases (s.seat k).running <;> rfl

theorem raiseMark_slot (p : Program) (n : Fin 6) : (s.raiseMark c k p).slot n = (s.openMarked c k).slot n := by
  unfold State.raiseMark
  dsimp only
  split
  · exact (postSeat_keeps k _).2.2.2.2.1 n
  · rfl

theorem raiseMark_port (p : Program) (q : Port) : (s.raiseMark c k p).port q =
    if p.markNotice = true ∧ (s.record k).owner ≠ some (otherPort q) then (s.port q).post (markNotice s c k)
    else s.port q := by
  obtain ⟨n, ms, cv, r, h⟩ := openMarked_eq s c k
  have hport : (s.openMarked c k).port q = s.port q := by rw [h]; cases q <;> rfl
  have howner : (s.openMarked c k).record k = s.record k := by rw [h]; rfl
  have hnotice : (s.openMarked c k).notice .mark (some k) ((s.openMarked c k).stepIdOf c k) 0 (some c.val) =
      markNotice s c k := by rw [h]; rfl
  unfold State.raiseMark
  dsimp only
  rw [hnotice]
  by_cases hm : p.markNotice = true
  · rw [if_pos hm, postSeat_port, hport, howner]
    by_cases ho : (s.record k).owner = some (otherPort q)
    · rw [if_pos ho, if_neg fun x => x.2 ho]
    · rw [if_neg ho, if_pos ⟨hm, ho⟩]
  · rw [if_neg hm, hport, if_neg fun x => hm x.1]

end Steps
end Machine
end Sys2Proof
end

section
/-! The end of a transaction and the CHAIN triggers it hands on (R73, R79). -/

namespace Sys2Proof
namespace Machine
namespace Steps

variable {s t : State} {c d : Fin 8} {k : Fin 4} {e : Fin 3} {p : Program}

/-! ### One trigger -/

theorem trigger_eq (s : State) (c : Fin 8) : ∃ cs, s.trigger c = { s with channels := cs } := by
  unfold State.trigger
  split <;> exact ⟨_, rfl⟩

theorem trigger_other (h : d ≠ c) : (s.trigger c).channel d = s.channel d := by
  unfold State.trigger
  split
  · rfl
  · exact channel_setChannel_other _ _ _ _ h

/-- What a trigger makes of its channel depends on the channel and the program table alone. -/
theorem trigger_channel_congr (hc : t.channel c = s.channel c) (hp : t.programs = s.programs) :
    (t.trigger c).channel c = (s.trigger c).channel c := by
  have hprog : t.channelProgram c = s.channelProgram c := by
    unfold State.channelProgram State.program
    rw [hc, hp]
  unfold State.trigger
  rw [hprog, hc]
  split
  · exact hc
  · simp only [channel_setChannel_same]

/-! ### The CHAIN channels of one entry (R73) -/

/-- The trigger of channel `d` when it waits for the transaction ends of entry `e` of seat `k`'s step. -/
def chainOne (k : Fin 4) (e : Fin 3) (s : State) (d : Fin 8) : State :=
  if (s.channel d).servesStep k && (s.channel d).trigger = some (.chain e) then s.trigger d else s

theorem chainFrom_eq_foldl (k : Fin 4) (e : Fin 3) (s : State) : s.chainFrom k e = ids8.foldl (chainOne k e) s := rfl

theorem chainOne_eq (k : Fin 4) (e : Fin 3) (s : State) (d : Fin 8) :
    ∃ cs, chainOne k e s d = { s with channels := cs } := by
  unfold chainOne
  split
  · exact trigger_eq s d
  · exact ⟨_, rfl⟩

theorem chainOne_other (h : d ≠ c) : (chainOne k e s c).channel d = s.channel d := by
  unfold chainOne
  split
  · exact trigger_other h
  · rfl

theorem chainOne_congr (hc : t.channel d = s.channel d) (hp : t.programs = s.programs) :
    (chainOne k e t d).channel d = (chainOne k e s d).channel d := by
  unfold chainOne
  rw [hc]
  split
  · exact trigger_channel_congr hc hp
  · exact hc

theorem foldl_chainOne_eq (xs : List (Fin 8)) (s : State) :
    ∃ cs, xs.foldl (chainOne k e) s = { s with channels := cs } := by
  induction xs generalizing s with
  | nil => exact ⟨_, rfl⟩
  | cons x xs ih =>
    obtain ⟨cs, h⟩ := chainOne_eq k e s x
    obtain ⟨cs', h'⟩ := ih (chainOne k e s x)
    exact ⟨cs', by rw [List.foldl_cons, h', h]⟩

theorem foldl_chainOne_channel {xs : List (Fin 8)} (hx : xs.Nodup) (s : State) :
    (xs.foldl (chainOne k e) s).channel d = if d ∈ xs then (chainOne k e s d).channel d else s.channel d := by
  induction xs generalizing s with
  | nil => simp
  | cons x xs ih =>
    obtain ⟨hnot, hrest⟩ := List.nodup_cons.mp hx
    obtain ⟨cs, hprog⟩ := chainOne_eq k e s x
    rw [List.foldl_cons, ih hrest]
    by_cases hd : d = x
    · subst hd
      rw [if_neg hnot, if_pos List.mem_cons_self]
    · have hsame : (chainOne k e s x).channel d = s.channel d := chainOne_other hd
      have hprograms : (chainOne k e s x).programs = s.programs := by rw [hprog]
      rw [chainOne_congr hsame hprograms, hsame]
      simp [hd]

/-- Each channel takes its own trigger, or none (R73). -/
theorem chainFrom_channel (k : Fin 4) (e : Fin 3) (d : Fin 8) :
    (s.chainFrom k e).channel d = (chainOne k e s d).channel d := by
  rw [chainFrom_eq_foldl, foldl_chainOne_channel ids8_nodup, if_pos (mem_ids8 d)]

theorem chainEnd_eq (s : State) (c : Fin 8) (k : Fin 4) : ∃ cs, s.chainEnd c k = { s with channels := cs } := by
  unfold State.chainEnd
  split
  · split
    · exact foldl_chainOne_eq ids8 s
    · exact ⟨_, rfl⟩
  · exact ⟨_, rfl⟩

/-- A CHAIN channel of the same step that names the entry takes a trigger (R73, R79). -/
theorem chainEnd_taken (hserves : (s.channel c).servesStep k = true) (he : (s.channel c).entry = some e)
    (hd : (s.channel d).servesStep k = true) (htrigger : (s.channel d).trigger = some (.chain e)) :
    (s.chainEnd c k).channel d = (s.trigger d).channel d := by
  unfold State.chainEnd
  simp only [he, hserves, if_true]
  rw [chainFrom_channel, chainOne, hd, htrigger]
  simp

/-- A channel to which this end hands no trigger stays (R70, R73). -/
theorem chainEnd_stays (h : ∀ e, (s.channel c).entry = some e → (s.channel c).servesStep k = true →
    (s.channel d).servesStep k = true → (s.channel d).trigger = some (.chain e) → (s.channel d).takesTrigger = false) :
    (s.chainEnd c k).channel d = s.channel d := by
  unfold State.chainEnd
  split
  · next e he =>
    split
    · next hserves =>
      rw [chainFrom_channel, chainOne]
      split
      · next hwaits =>
        obtain ⟨hd, htrigger⟩ := Bool.and_eq_true_iff.mp hwaits
        rw [trigger_ignored (h e he hserves hd (of_decide_eq_true htrigger))]
      · rfl
    · rfl
  · rfl

/-! ### The end of a transaction (R79) -/

theorem endTransaction_eq (s : State) (c : Fin 8) (k : Fin 4) (p : Program) :
    ∃ cs, s.endTransaction c k p = { s with channels := cs } := by
  obtain ⟨cs, h⟩ := chainEnd_eq (s.setChannel c ((s.channel c).reload p.count)) c k
  unfold State.endTransaction
  dsimp only
  rw [h]
  split <;> exact ⟨_, rfl⟩

/-- The channel is reloaded, and done in ONE_SHOT mode (R79, stages 1, 2 and 4). -/
theorem endTransaction_self (hout : (s.channel c).outstanding ≠ 0) : (s.endTransaction c k p).channel c =
    { (s.channel c).reload p.count with state := if p.mode = .oneShot then .done else (s.channel c).state } := by
  have hreloaded : ((s.setChannel c ((s.channel c).reload p.count)).chainEnd c k).channel c =
      (s.channel c).reload p.count := by
    rw [chainEnd_stays, channel_setChannel_same]
    rw [channel_setChannel_same]
    exact fun _ _ _ _ _ => not_takesTrigger (Or.inr (Or.inr hout))
  unfold State.endTransaction
  dsimp only
  split
  · next h => rw [channel_setChannel_same, hreloaded, if_pos h]
  · next h =>
    rw [hreloaded, if_neg (by rw [h]; exact fun x => nomatch x)]
    rfl

theorem endTransaction_other (hd : d ≠ c) : (s.endTransaction c k p).channel d =
    ((s.setChannel c ((s.channel c).reload p.count)).chainEnd c k).channel d := by
  unfold State.endTransaction
  dsimp only
  split
  · exact channel_setChannel_other _ _ _ _ hd
  · rfl

end Steps
end Machine
end Sys2Proof
end

section
/-! A granted move of a channel (R74): delivery, count, mark and transaction end. -/

namespace Sys2Proof
namespace Machine
namespace Steps

variable {s : State} {c d : Fin 8} {k : Fin 4} {tg : Target} {p : Program}

/-! ### The delivery (R76) -/

/-- A delivered word writes the output or the frame slot of one seat. -/
theorem deliver_eq (s : State) (k : Fin 4) (tg : Target) (made : Nat) (w : Word) : ∃ x : Seat,
    s.deliver k tg made w = s.setSeat k x ∧ x.record = s.record k ∧ x.queue = (s.seat k).queue ∧
    x.running = (s.seat k).running ∧ x.results = (s.seat k).results ∧ x.outputs = (s.seat k).outputs.take tg w ∧
    ∀ f, tg = .fs f → x.frames[f] = (s.frame k f).deliver made w := by
  cases tg with
  | fs f => exact ⟨_, rfl, rfl, rfl, rfl, rfl, rfl, fun g hg => by cases hg; simp⟩
  | ao0 | ao1 | fo0 | fo1 | dl => exact ⟨_, rfl, rfl, rfl, rfl, rfl, rfl, fun g hg => nomatch hg⟩

/-! ### The move up to its mark (R74, stages 2 to 6) -/

/-- A move whose word is delivered and counted. -/
def countedMove (s : State) (c : Fin 8) (k : Fin 4) (tg : Target) (p : Program) : State :=
  (s.deliver k tg (s.channel c).made (Memory.read s.pattern (s.channel c).address.toNat)).setChannel c
    ((s.channel c).counted p)

/-- A counted move with its mark, if it makes one. -/
def markedMove (s : State) (c : Fin 8) (k : Fin 4) (tg : Target) (p : Program) : State :=
  if (s.channel c).remaining - 1 = p.mark then (countedMove s c k tg p).raiseMark c k p else countedMove s c k tg p

/-- A marked move with the end of its transaction, if it is the last. -/
def endedMove (s : State) (c : Fin 8) (k : Fin 4) (tg : Target) (p : Program) : State :=
  if (s.channel c).remaining - 1 = 0 then (markedMove s c k tg p).endTransaction c k p else markedMove s c k tg p

theorem makeMove_eq : s.makeMove c k tg p = (endedMove s c k tg p).setChannel c
    { (endedMove s c k tg p).channel c with outstanding := (s.channel c).outstanding - 1 } := rfl

theorem countedMove_eq (s : State) (c : Fin 8) (k : Fin 4) (tg : Target) (p : Program) : ∃ x : Seat,
    countedMove s c k tg p = (s.setSeat k x).setChannel c ((s.channel c).counted p) ∧ x.record = s.record k ∧
    x.queue = (s.seat k).queue ∧ x.running = (s.seat k).running ∧ x.results = (s.seat k).results ∧
    x.outputs = (s.seat k).outputs.take tg (Memory.read s.pattern (s.channel c).address.toNat) ∧
    ∀ f, tg = .fs f → x.frames[f] =
      (s.frame k f).deliver (s.channel c).made (Memory.read s.pattern (s.channel c).address.toNat) := by
  obtain ⟨x, h, hx⟩ := deliver_eq s k tg (s.channel c).made (Memory.read s.pattern (s.channel c).address.toNat)
  exact ⟨x, by rw [countedMove, h], hx⟩

theorem markedMove_eq (s : State) (c : Fin 8) (k : Fin 4) (tg : Target) (p : Program) : ∃ n ms cv r a b,
    markedMove s c k tg p = { countedMove s c k tg p with
      draws := n, slots := ms, converter := cv, rotation := r, portA := a, portB := b } := by
  unfold markedMove
  split
  · exact raiseMark_eq _ c k p
  · exact ⟨_, _, _, _, _, _, rfl⟩

/-- After its mark a move writes channels alone. -/
theorem makeMove_channels (s : State) (c : Fin 8) (k : Fin 4) (tg : Target) (p : Program) : ∃ cs,
    s.makeMove c k tg p = { markedMove s c k tg p with channels := cs } := by
  rw [makeMove_eq]
  unfold endedMove
  split
  · obtain ⟨cs, h⟩ := endTransaction_eq (markedMove s c k tg p) c k p
    rw [h]
    exact ⟨_, rfl⟩
  · exact ⟨_, rfl⟩

/-! ### The seats, the memory and the wait list -/

theorem makeMove_seats (s : State) (c : Fin 8) (k : Fin 4) (tg : Target) (p : Program) :
    (s.makeMove c k tg p).seats = (countedMove s c k tg p).seats ∧
    (s.makeMove c k tg p).pattern = s.pattern ∧ (s.makeMove c k tg p).grants = s.grants ∧
    (s.makeMove c k tg p).waitList = s.waitList := by
  obtain ⟨cs, h⟩ := makeMove_channels s c k tg p
  obtain ⟨n, ms, cv, r, a, b, hm⟩ := markedMove_eq s c k tg p
  obtain ⟨x, hc, -⟩ := countedMove_eq s c k tg p
  rw [h, hm, hc]
  exact ⟨rfl, rfl, rfl, rfl⟩

/-- Of the seats a move reaches the output or the frame slot it delivers to, and nothing else. -/
theorem makeMove_seat (s : State) (c : Fin 8) (k : Fin 4) (tg : Target) (p : Program) :
    ((s.makeMove c k tg p).seat k).outputs =
      (s.seat k).outputs.take tg (Memory.read s.pattern (s.channel c).address.toNat) ∧
    (∀ f, tg = .fs f → (s.makeMove c k tg p).frame k f =
      (s.frame k f).deliver (s.channel c).made (Memory.read s.pattern (s.channel c).address.toNat)) ∧
    ∀ j, (s.makeMove c k tg p).record j = s.record j ∧ ((s.makeMove c k tg p).seat j).queue = (s.seat j).queue ∧
      ((s.makeMove c k tg p).seat j).running = (s.seat j).running ∧
      ((s.makeMove c k tg p).seat j).results = (s.seat j).results ∧
      (j ≠ k → (s.makeMove c k tg p).seat j = s.seat j) := by
  obtain ⟨hseats, -⟩ := makeMove_seats s c k tg p
  obtain ⟨x, hc, hrecord, hqueue, hrunning, hresults, houtputs, hframes⟩ := countedMove_eq s c k tg p
  have hseat : ∀ j, (s.makeMove c k tg p).seat j = if j = k then x else s.seat j := fun j => by
    rw [← seat_setSeat]
    unfold State.seat
    rw [hseats, hc]
    rfl
  refine ⟨by rw [hseat, if_pos rfl, houtputs], fun f hf => ?_, fun j => ?_⟩
  · rw [← hframes f hf, State.frame, hseat, if_pos rfl]
  · rw [State.record, hseat]
    by_cases hj : j = k
    · subst hj
      rw [if_pos rfl]
      exact ⟨hrecord, hqueue, hrunning, hresults, fun h => absurd rfl h⟩
    · rw [if_neg hj]
      exact ⟨rfl, rfl, rfl, rfl, fun _ => rfl⟩

/-! ### The mark (R77, R78) -/

theorem countedMove_channel_self : (countedMove s c k tg p).channel c = (s.channel c).counted p := by simp [countedMove]

theorem countedMove_slot (n : Fin 6) : (countedMove s c k tg p).slot n = s.slot n := by
  obtain ⟨x, h, -⟩ := countedMove_eq s c k tg p
  rw [h]
  rfl

theorem makeMove_slot (n : Fin 6) : (s.makeMove c k tg p).slot n = (markedMove s c k tg p).slot n := by
  obtain ⟨cs, h⟩ := makeMove_channels s c k tg p
  rw [h]
  rfl

/-- A counted channel serves its step exactly when it is neither kept nor without an entry (R77). -/
theorem counted_serves (hseat : (s.channel c).seat = some k) : ((countedMove s c k tg p).channel c).servesStep k = true ↔
    (s.channel c).entry ≠ none ∧ (s.channel c).kept = false := by
  rw [servesStep_iff, countedMove_channel_self]
  simp [Channel.counted, hseat]

/-- At the mark each gate that waits for the entry the channel serves opens (R77, R111). -/
theorem makeMove_opens {e : Fin 3} {m : Fin 6} (hmark : (s.channel c).remaining - 1 = p.mark)
    (hseat : (s.channel c).seat = some k) (he : (s.channel c).entry = some e) (hkept : (s.channel c).kept = false)
    (hm : (s.slot m).awaitsMark k e = true) : standing ((s.makeMove c k tg p).slot m) = (.sampling, none) := by
  rw [makeMove_slot, markedMove, if_pos hmark, raiseMark_slot]
  refine openMarked_opens (e := e) ((counted_serves hseat).mpr ⟨by simp [he], hkept⟩) ?_ ?_
  · rw [countedMove_channel_self]; exact he
  · rw [countedMove_slot]; exact hm

/-- Any other slot stands as it did (R111). -/
theorem makeMove_stands {m : Fin 6} (hm : ∀ e, (s.channel c).entry = some e → (s.slot m).awaitsMark k e = false) :
    standing ((s.makeMove c k tg p).slot m) = standing (s.slot m) := by
  rw [makeMove_slot, markedMove]
  split
  · rw [raiseMark_slot, openMarked_stays, countedMove_slot]
    rw [countedMove_channel_self, countedMove_slot]
    exact hm
  · rw [countedMove_slot]

/-- Away from the mark, or on a channel that serves no entry, the acquisition unit stays (R77). -/
theorem makeMove_acquisition (hseat : (s.channel c).seat = some k) (h : (s.channel c).remaining - 1 ≠ p.mark ∨
    (s.channel c).entry = none ∨ (s.channel c).kept = true) :
    (s.makeMove c k tg p).slots = s.slots ∧ (s.makeMove c k tg p).converter = s.converter := by
  obtain ⟨cs, hmove⟩ := makeMove_channels s c k tg p
  obtain ⟨x, hcounted, -⟩ := countedMove_eq s c k tg p
  have hmarked : (markedMove s c k tg p).slots = (countedMove s c k tg p).slots ∧
      (markedMove s c k tg p).converter = (countedMove s c k tg p).converter := by
    unfold markedMove
    split
    · next hmark =>
      have hserves : ((countedMove s c k tg p).channel c).servesStep k = false := by
        refine Bool.eq_false_of_not_eq_true fun hs => ?_
        obtain ⟨hentry, hkept⟩ := (counted_serves hseat).mp hs
        rcases h with h | h | h
        · exact h hmark
        · exact hentry h
        · rw [hkept] at h; cases h
      unfold State.raiseMark
      rw [openMarked_unserved hserves]
      dsimp only
      split
      · obtain ⟨a, b, hpost⟩ := postSeat_eq (s := countedMove s c k tg p) (k := k)
          ((countedMove s c k tg p).notice .mark (some k) ((countedMove s c k tg p).stepIdOf c k) 0 (some c.val))
        rw [hpost]
        exact ⟨rfl, rfl⟩
      · exact ⟨rfl, rfl⟩
    · exact ⟨rfl, rfl⟩
  rw [hmove]
  exact ⟨hmarked.1.trans (by rw [hcounted]; rfl), hmarked.2.trans (by rw [hcounted]; rfl)⟩

/-- At the mark, where the program asks for it, one MARK notice goes along the seat's route (R78, R184). -/
theorem makeMove_port (hseat : (s.channel c).seat = some k) (q : Port) : (s.makeMove c k tg p).port q =
    if (s.channel c).remaining - 1 = p.mark ∧ p.markNotice = true ∧ (s.record k).owner ≠ some (otherPort q) then
      (s.port q).post { kind := .mark, level := 0, seat := some k,
                        stepId := if (s.channel c).kept = true ∨ (s.channel c).entry = none then none
                                  else (s.seat k).running.map (fun r => r.step.id),
                        code := 0, count := some c.val, time := s.now }
    else s.port q := by
  obtain ⟨cs, hmove⟩ := makeMove_channels s c k tg p
  obtain ⟨x, hcounted, hrecord, -, hrunning, -⟩ := countedMove_eq s c k tg p
  have hport : (countedMove s c k tg p).port q = s.port q := by rw [hcounted]; cases q <;> rfl
  have hseatk : (countedMove s c k tg p).seat k = x := by
    rw [hcounted]
    exact seat_setSeat_same s k x
  have howner : (countedMove s c k tg p).record k = s.record k := by rw [State.record, hseatk, hrecord]
  have hnow : (countedMove s c k tg p).now = s.now := by rw [hcounted]; rfl
  have hstep : (countedMove s c k tg p).stepIdOf c k =
      if (s.channel c).kept = true ∨ (s.channel c).entry = none then none
      else (s.seat k).running.map (fun r => r.step.id) := by
    rw [stepIdOf_eq, countedMove_channel_self, hseatk, hrunning]
    · rfl
    · rw [countedMove_channel_self]; exact fun e => nomatch e
    · rw [countedMove_channel_self]; exact hseat
  have hmarked : (s.makeMove c k tg p).port q = (markedMove s c k tg p).port q := by rw [hmove]; cases q <;> rfl
  rw [hmarked, markedMove]
  by_cases hmark : (s.channel c).remaining - 1 = p.mark
  · rw [if_pos hmark, raiseMark_port, hport, howner, markNotice, hstep, hnow]
    simp only [hmark, true_and]
  · rw [if_neg hmark, if_neg fun h => hmark h.1, hport]

/-! ### The channels (R70, R73, R74, R79) -/

theorem markedMove_channel_self : (markedMove s c k tg p).channel c = (s.channel c).counted p := by
  obtain ⟨n, ms, cv, r, a, b, h⟩ := markedMove_eq s c k tg p
  rw [h]
  exact countedMove_channel_self

theorem markedMove_channel_other (hd : d ≠ c) : (markedMove s c k tg p).channel d = s.channel d := by
  obtain ⟨n, ms, cv, r, a, b, h⟩ := markedMove_eq s c k tg p
  obtain ⟨x, hc, -⟩ := countedMove_eq s c k tg p
  rw [h, hc]
  exact channel_setChannel_other (s.setSeat k x) c d _ hd

/-- A move that ends no transaction counts, and advances. -/
theorem makeMove_channel_counted (h : (s.channel c).remaining - 1 ≠ 0) : (s.makeMove c k tg p).channel c =
    { (s.channel c).counted p with outstanding := (s.channel c).outstanding - 1 } := by
  rw [makeMove_eq, channel_setChannel_same, endedMove, if_neg h, markedMove_channel_self]

/-- A move that ends its transaction reloads the channel, which is done in ONE_SHOT mode. -/
theorem makeMove_channel_ended (h : (s.channel c).remaining - 1 = 0) (hout : (s.channel c).outstanding ≠ 0) :
    (s.makeMove c k tg p).channel c = { ((s.channel c).counted p).reload p.count with
      state := if p.mode = .oneShot then .done else .running, outstanding := (s.channel c).outstanding - 1 } := by
  rw [makeMove_eq, channel_setChannel_same, endedMove, if_pos h, endTransaction_self, markedMove_channel_self]
  · rfl
  · rw [markedMove_channel_self]; exact hout

theorem makeMove_channel_other (hd : d ≠ c) : (s.makeMove c k tg p).channel d = (endedMove s c k tg p).channel d := by
  rw [makeMove_eq, channel_setChannel_other _ _ _ _ hd]

/-- The state in which a transaction end hands on its triggers. -/
def reloadedMove (s : State) (c : Fin 8) (k : Fin 4) (tg : Target) (p : Program) : State :=
  (markedMove s c k tg p).setChannel c (((s.channel c).counted p).reload p.count)

theorem endedMove_channel_other (hd : d ≠ c) (h : (s.channel c).remaining - 1 = 0) :
    (endedMove s c k tg p).channel d = ((reloadedMove s c k tg p).chainEnd c k).channel d := by
  rw [endedMove, if_pos h, endTransaction_other hd, markedMove_channel_self]
  rfl

theorem reloadedMove_channel_other (hd : d ≠ c) : (reloadedMove s c k tg p).channel d = s.channel d := by
  rw [reloadedMove, channel_setChannel_other _ _ _ _ hd, markedMove_channel_other hd]

theorem reloadedMove_serves (hseat : (s.channel c).seat = some k) :
    ((reloadedMove s c k tg p).channel c).servesStep k = true ↔
      (s.channel c).entry ≠ none ∧ (s.channel c).kept = false := by
  rw [servesStep_iff, reloadedMove, channel_setChannel_same]
  simp [Channel.counted, Channel.reload, hseat]

theorem reloadedMove_channelProgram (hd : d ≠ c) : (reloadedMove s c k tg p).channelProgram d = s.channelProgram d := by
  obtain ⟨n, ms, cv, r, a, b, h⟩ := markedMove_eq s c k tg p
  obtain ⟨x, hc, -⟩ := countedMove_eq s c k tg p
  have hprogram : ∀ i, (reloadedMove s c k tg p).program i = s.program i := fun i => by
    rw [reloadedMove, h, hc]
    rfl
  unfold State.channelProgram
  rw [reloadedMove_channel_other hd]
  simp only [hprogram]

/-- The move ends a transaction of channel `c`, which serves entry `e` of seat `k`'s step, and channel `d` of that step
waits for that end and can take a trigger (R70, R73, R79). -/
structure HandsTrigger (s : State) (c d : Fin 8) (k : Fin 4) (e : Fin 3) : Prop where
  last : (s.channel c).remaining - 1 = 0
  entry : (s.channel c).entry = some e
  unkept : (s.channel c).kept = false
  serves : (s.channel d).servesStep k = true
  trigger : (s.channel d).trigger = some (.chain e)
  takes : (s.channel d).takesTrigger = true

/-- A channel that the end hands a trigger is asked for its block. -/
theorem makeMove_chains {e : Fin 3} {x : Program} (h : HandsTrigger s c d k e) (hd : d ≠ c)
    (hseat : (s.channel c).seat = some k) (hx : s.channelProgram d = some x) :
    (s.makeMove c k tg p).channel d = asked (s.channel d) x.block := by
  have hsame := reloadedMove_channel_other (s := s) (k := k) (tg := tg) (p := p) hd
  rw [makeMove_channel_other hd, endedMove_channel_other hd h.last, chainEnd_taken (e := e), trigger_taken (p := x),
    channel_setChannel_same, hsame]
  · rw [reloadedMove_channelProgram hd, hx]
  · rw [hsame, h.takes]
  · exact (reloadedMove_serves hseat).mpr ⟨by simp [h.entry], h.unkept⟩
  · rw [reloadedMove, channel_setChannel_same]; exact h.entry
  · rw [hsame, h.serves]
  · rw [hsame, h.trigger]

/-- Every other channel stays. -/
theorem makeMove_channel_stays (h : ∀ e, ¬ HandsTrigger s c d k e) (hd : d ≠ c)
    (hseat : (s.channel c).seat = some k) : (s.makeMove c k tg p).channel d = s.channel d := by
  rw [makeMove_channel_other hd]
  by_cases hlast : (s.channel c).remaining - 1 = 0
  · have hsame := reloadedMove_channel_other (s := s) (k := k) (tg := tg) (p := p) hd
    rw [endedMove_channel_other hd hlast, chainEnd_stays, hsame]
    rw [hsame]
    intro e he hserves hds htrigger
    rw [reloadedMove, channel_setChannel_same] at he
    obtain ⟨-, hkept⟩ := (reloadedMove_serves hseat).mp hserves
    exact Bool.eq_false_of_not_eq_true fun htakes => h e ⟨hlast, he, hkept, hds, htrigger, htakes⟩
  · rw [endedMove, if_neg hlast, markedMove_channel_other hd]

/-! ### CHANNEL_MOVE -/

theorem exec_channelMove_granted (hout : (s.channel c).outstanding ≠ 0)
    (hstate : (s.channel c).state = .armed ∨ (s.channel c).state = .running) (hseat : (s.channel c).seat = some k)
    (htarget : (s.channel c).target = some tg) (hp : s.channelProgram c = some p) (hg : s.moveGranted c k = true) :
    exec (.channelMove c) s = .next (s.makeMove c k tg p) := by
  have hready : s.moveReady c = true := by simp [State.moveReady, hout, hstate]
  have hbound : (s.channel c).state ≠ .free := by rcases hstate with h | h <;> simp [h]
  change whenDue s (s.moveReady c) (takeRefusal (s.moveOnce c) c) = _
  rw [hready, whenDue_true, moveOnce_eq hbound hseat htarget hp, hg]
  rfl

/-- Settles O41: the seats and the word from the delivery, the slots and the ports from the mark, the channels from the
count and the transaction end. -/
theorem grantedMove : Obligations.GrantedMove := by
  intro s c k tg p hout hstate hseat htarget hp hg
  obtain ⟨houtputs, hframe, hseats⟩ := makeMove_seat s c k tg p
  obtain ⟨-, hpattern, hgrants, hwaits⟩ := makeMove_seats s c k tg p
  have hstays : ∀ m, (∀ e, (s.channel c).entry = some e → (s.slot m).awaitsMark k e = false) →
      ((s.makeMove c k tg p).slot m).state = (s.slot m).state := fun m hm => congrArg Prod.fst (makeMove_stands hm)
  have hself : (s.makeMove c k tg p).channel c = if (s.channel c).remaining - 1 = 0 then
      { ((s.channel c).counted p).reload p.count with
        state := if p.mode = .oneShot then .done else .running, outstanding := (s.channel c).outstanding - 1 }
      else { (s.channel c).counted p with outstanding := (s.channel c).outstanding - 1 } := by
    split
    · next h => exact makeMove_channel_ended h hout
    · next h => exact makeMove_channel_counted h
  refine ⟨_, exec_channelMove_granted hout hstate hseat htarget hp hg, ?_, fun h => ?_, fun h => ?_, ?_, ?_, houtputs,
    hframe, fun hmark e m he hkept hgated hm hgate => ?_, fun m hm => hstays m fun e he => ?_,
    makeMove_acquisition hseat, makeMove_port hseat, fun hlast e d x hd he hkept hds hde hdk hdt hda hdo hx => ?_,
    fun d hd h => makeMove_channel_stays (fun e hands => ?_) hd hseat, hpattern, hgrants, hwaits, hseats⟩
  · rw [hself]; split <;> rfl
  · rw [hself, if_neg h]; exact ⟨rfl, rfl, rfl, rfl⟩
  · rw [hself, if_pos h]; exact ⟨rfl, rfl, rfl, rfl⟩
  · rw [hself]; split <;> rfl
  · rw [hself]; split <;> rfl
  · exact Prod.mk.inj (makeMove_opens hmark hseat he hkept ((awaitsMark_iff _ _ _).mpr ⟨hgated, hm, hgate⟩))
  · refine Bool.eq_false_of_not_eq_true fun hawaits => ?_
    obtain ⟨hgated, hms, hgate⟩ := (awaitsMark_iff _ _ _).mp hawaits
    rcases hm with hm | hm | hm
    · exact hm hgated
    · exact hm hms
    · exact hm e he hgate
  · have hbound : (s.channel d).state ≠ .free := by rcases hda with h | h <;> simp [h]
    exact makeMove_chains ⟨hlast, he, hkept, (servesStep_iff _ k).mpr ⟨hbound, hds, hde, hdk⟩, hdt,
      (takesTrigger_iff _).mpr ⟨hda, hdo⟩⟩ hd hseat hx
  · obtain ⟨hbound, hds, hde, hdk⟩ := (servesStep_iff _ k).mp hands.serves
    obtain ⟨hda, hdo⟩ := (takesTrigger_iff _).mp hands.takes
    rcases h with h | h | h | h | h | h | h | h | h | h
    · exact h hands.last
    · simp [hands.unkept] at h
    · simp [hands.entry] at h
    · exact h hds
    · exact hde h
    · simp [hdk] at h
    · exact hbound h
    · simp [h] at hda
    · exact h hdo
    · exact h e hands.entry hands.trigger

end Steps
end Machine
end Sys2Proof
end

section
/-! The transmit arbiter's choice and the start of a transmission (R96, R97). -/

namespace Sys2Proof
namespace Machine
namespace Steps

variable {s : State} {k : Fin 4} {f g : Fin 8}

/-! ### The choice among the pending slots (R97) -/

theorem ids8_sorted : ids8.Pairwise (· < ·) := by decide

/-- Whatever the arbiter holds is a pending slot it has looked at. -/
theorem foldl_betterSlot_mem (fs : Vector FrameSlot 8) {xs : List (Fin 8)} {b : Fin 8}
    (h : xs.foldl (betterSlot fs) none = some b) : b ∈ xs ∧ fs[b].pending = true := by
  suffices hgen : ∀ (xs : List (Fin 8)) (best : Option (Fin 8)), xs.foldl (betterSlot fs) best = some b →
      best = some b ∨ (b ∈ xs ∧ fs[b].pending = true) from (hgen xs none h).resolve_left fun e => nomatch e
  intro xs
  induction xs with
  | nil => exact fun best h => Or.inl h
  | cons x xs ih =>
    intro best h
    rcases ih _ h with hx | ⟨hb, hp⟩
    · unfold betterSlot at hx
      split at hx
      · next hp =>
        have hchosen : best = some b ∨ x = b := by
          split at hx
          · exact Or.inr (Option.some.inj hx)
          · split at hx
            · exact Or.inr (Option.some.inj hx)
            · exact Or.inl hx
        refine hchosen.imp_right fun e => ?_
        subst e
        exact ⟨List.mem_cons_self, hp⟩
      · exact Or.inl hx
    · exact Or.inr ⟨List.mem_cons_of_mem x hb, hp⟩

/-- A slot with which no later pending slot competes stays chosen. -/
theorem foldl_betterSlot_stays {fs : Vector FrameSlot 8} {xs : List (Fin 8)}
    (h : ∀ x ∈ xs, fs[x].pending = true → fs[g].ident.toNat ≤ fs[x].ident.toNat) :
    xs.foldl (betterSlot fs) (some g) = some g := by
  induction xs with
  | nil => rfl
  | cons x xs ih =>
    have hx : betterSlot fs (some g) x = some g := by
      unfold betterSlot
      split
      · next hp => exact if_neg (Nat.not_lt.mpr (h x List.mem_cons_self hp))
      · rfl
    rw [List.foldl_cons, hx]
    exact ih fun y hy => h y (List.mem_cons_of_mem x hy)

/-- The arbiter chooses the lowest identifier, and the lowest number among those. -/
theorem chooseSlot_best {fs : Vector FrameSlot 8} (hg : fs[g].pending = true)
    (hbest : ∀ h : Fin 8, fs[h].pending = true →
      fs[g].ident.toNat < fs[h].ident.toNat ∨ (fs[g].ident = fs[h].ident ∧ g ≤ h)) : chooseSlot fs = some g := by
  obtain ⟨before, after, hids⟩ := List.append_of_mem (mem_ids8 g)
  have hsorted := ids8_sorted
  rw [hids, List.pairwise_append] at hsorted
  obtain ⟨-, -, hbefore⟩ := hsorted
  have hafter : ∀ x ∈ after, fs[x].pending = true → fs[g].ident.toNat ≤ fs[x].ident.toNat := fun x _ hx =>
    (hbest x hx).elim Nat.le_of_lt fun he => le_of_eq (congrArg BitVec.toNat he.1)
  have hchosen : betterSlot fs (before.foldl (betterSlot fs) none) g = some g := by
    unfold betterSlot
    rw [if_pos hg]
    split
    · rfl
    · next b hb =>
      obtain ⟨hmem, hpending⟩ := foldl_betterSlot_mem fs hb
      have hlt : b < g := hbefore b hmem g List.mem_cons_self
      have hident := (hbest b hpending).resolve_right fun he => absurd he.2 (not_le.mpr hlt)
      rw [if_pos hident]
  rw [chooseSlot, hids, List.foldl_append, List.foldl_cons, hchosen]
  exact foldl_betterSlot_stays hafter

theorem chooseSlot_only {fs : Vector FrameSlot 8} (hg : fs[g].pending = true)
    (hothers : ∀ h : Fin 8, h ≠ g → fs[h].pending = false) : chooseSlot fs = some g :=
  chooseSlot_best hg fun h hh => Or.inr (by
    have he : h = g := by_contra fun hne => by rw [hothers h hne] at hh; cases hh
    exact he ▸ ⟨rfl, le_refl _⟩)

theorem chooseSlot_none {fs : Vector FrameSlot 8} (h : ∀ g : Fin 8, fs[g].pending = false) : chooseSlot fs = none := by
  cases hc : chooseSlot fs with
  | none => rfl
  | some b =>
    obtain ⟨-, hb⟩ := foldl_betterSlot_mem fs hc
    rw [h b] at hb
    cases hb

/-! ### Two updates of one seat -/

theorem setFrame_setFrame (x y : FrameSlot) : (s.setFrame k f x).setFrame k f y = s.setFrame k f y := by
  simp [State.setFrame]

theorem setLink_setFrame_setLink (l l' : FrameLink) (x : FrameSlot) :
    ((s.setLink k l).setFrame k g x).setLink k l' = (s.setFrame k g x).setLink k l' := by
  simp [State.setFrame, State.setLink]

@[simp] theorem setLink_frame (l : FrameLink) : (s.setLink k l).frame k g = s.frame k g := by
  simp [State.setLink, State.frame]

/-! ### The start of a transmission (R97) -/

theorem frameTriggerOne_ignored {c : Fin 8} (acc : State × Option (Fin 8))
    (h : (acc.1.channel c).frameTriggered k f = false) : frameTriggerOne k f acc c = acc := by
  simp [frameTriggerOne, h]

theorem foldl_frameTriggerOne_ignored {xs : List (Fin 8)} (acc : State × Option (Fin 8))
    (h : ∀ c ∈ xs, (acc.1.channel c).frameTriggered k f = false) : xs.foldl (frameTriggerOne k f) acc = acc := by
  induction xs with
  | nil => rfl
  | cons x xs ih =>
    rw [List.foldl_cons, frameTriggerOne_ignored acc (h x List.mem_cons_self)]
    exact ih fun c hc => h c (List.mem_cons_of_mem x hc)

theorem frameTrigger_none (h : ∀ c, (s.channel c).frameTriggered k f = false) : s.frameTrigger k f = (s, none) :=
  foldl_frameTriggerOne_ignored (s, none) fun c _ => h c

/-- One channel takes the trigger, and leaves the others as little triggered as they were. -/
theorem frameTrigger_one {c : Fin 8} (h : ∀ d, d ≠ c → (s.channel d).frameTriggered k f = false)
    (hafter : ∀ d, d ≠ c → ((frameTriggerOne k f (s, none) c).1.channel d).frameTriggered k f = false) :
    s.frameTrigger k f = frameTriggerOne k f (s, none) c := by
  obtain ⟨before, after, hids⟩ := List.append_of_mem (mem_ids8 c)
  have hnodup := ids8_nodup
  rw [hids, List.nodup_append] at hnodup
  obtain ⟨-, hcons, hdisjoint⟩ := hnodup
  obtain ⟨hnot, -⟩ := List.nodup_cons.mp hcons
  have hbefore : before.foldl (frameTriggerOne k f) (s, none) = (s, none) :=
    foldl_frameTriggerOne_ignored _ fun d hd => h d fun e => hdisjoint d hd c List.mem_cons_self e
  rw [State.frameTrigger, hids, List.foldl_append, List.foldl_cons, hbefore]
  exact foldl_frameTriggerOne_ignored _ fun d hd => hafter d fun e => hnot (e ▸ hd)

/-- What a slot sends, and for how long (R97). -/
theorem sendFrame_eq (s : State) (k : Fin 4) (f : Fin 8) : s.sendFrame k f = s.setLink k (.sending f (s.frame k f).ident
    ((s.frame k f).payload.toList.take (s.frame k f).length)
    (s.clock.afterUs (100 + 16 * min (s.frame k f).length 8))) := by
  simp [State.sendFrame, FrameSlot.sentBytes, frameTime, Config.frameBaseUs, Config.frameByteUs]

theorem transmitArbiter_busy (h : (s.seat k).link ≠ .idle) : s.transmitArbiter k = (s, none) := by
  unfold State.transmitArbiter
  split
  · rfl
  · next hidle => exact absurd hidle h

theorem transmitArbiter_rests (h : (s.record k).state ≠ .testing ∨ ∀ g, (s.frame k g).pending = false) :
    s.transmitArbiter k = (s, none) := by
  unfold State.transmitArbiter
  split
  · rfl
  · split
    · next htesting =>
      rw [chooseSlot_none (h.resolve_left fun hn => hn htesting)]
    · rfl

theorem transmitArbiter_starts (hidle : (s.seat k).link = .idle) (htesting : (s.record k).state = .testing)
    (hchosen : chooseSlot (s.seat k).frames = some g) : s.transmitArbiter k = s.startTransmission k g := by
  unfold State.transmitArbiter
  simp only [hidle, htesting, hchosen, if_true]

/-- The start of a transmission that triggers no channel (R97). -/
theorem startTransmission_untriggered (h : ∀ c, (s.channel c).frameTriggered k g = false) :
    s.startTransmission k g = ((s.setFrame k g { s.frame k g with pending := false }).setLink k
      (.sending g (s.frame k g).ident ((s.frame k g).payload.toList.take (s.frame k g).length)
        (s.clock.afterUs (100 + 16 * min (s.frame k g).length 8))), none) := by
  unfold State.startTransmission
  dsimp only
  rw [frameTrigger_none (by simpa using h), sendFrame_eq, frame_setFrame_same]
  rfl

end Steps
end Machine
end Sys2Proof
end

section
/-! A block made on the slot that triggers it (R72, R76, R97). -/

namespace Sys2Proof
namespace Machine
namespace Steps

variable {s t : State} {c d : Fin 8} {k : Fin 4} {f : Fin 8} {p : Program} {n : Nat}

/-! ### The words in the payload (R76) -/

/-- The slot after `n` moves of a block, from move `made` and address `a` on. -/
def deliverBlock (m : Memory 16) (p : Program) : Nat → Nat → PatternAddr → FrameSlot → FrameSlot
  | 0, _, _, x => x
  | n + 1, made, a, x => deliverBlock m p n (made + 1) (advance p a) (x.deliver made (Memory.read m a.toNat))

theorem deliver_settings (x : FrameSlot) (made : Nat) (w : Word) : (x.deliver made w).ident = x.ident ∧
    (x.deliver made w).length = x.length ∧ (x.deliver made w).pending = x.pending := by
  unfold FrameSlot.deliver
  split <;> exact ⟨rfl, rfl, rfl⟩

theorem deliverBlock_settings (m : Memory 16) (p : Program) (n made : Nat) (a : PatternAddr) (x : FrameSlot) :
    (deliverBlock m p n made a x).ident = x.ident ∧ (deliverBlock m p n made a x).length = x.length ∧
      (deliverBlock m p n made a x).pending = x.pending := by
  induction n generalizing made a x with
  | zero => exact ⟨rfl, rfl, rfl⟩
  | succ n ih =>
    obtain ⟨hident, hlength, hpending⟩ := ih (made + 1) (advance p a) (x.deliver made (Memory.read m a.toNat))
    obtain ⟨hi, hl, hp⟩ := deliver_settings x made (Memory.read m a.toNat)
    exact ⟨hident.trans hi, hlength.trans hl, hpending.trans hp⟩

/-- A move writes the two positions of its word, low byte first. -/
theorem deliver_payload (x : FrameSlot) (made : Nat) (w : Word) (j : Nat) (hj : j < 8) :
    (x.deliver made w).payload[j] =
      if j = 2 * made then lowByte w else if j = 2 * made + 1 then highByte w else x.payload[j] := by
  unfold FrameSlot.deliver
  split
  · simp only [Vector.getElem_set]
    by_cases h0 : 2 * made = j
    · subst h0; simp
    · by_cases h1 : 2 * made + 1 = j
      · subst h1; simp
      · simp [h0, h1, Ne.symm h0, Ne.symm h1]
  · rw [if_neg (by omega), if_neg (by omega)]

/-- Positions outside the block's words stay. -/
theorem deliverBlock_payload_outside (m : Memory 16) (p : Program) (n made : Nat) (a : PatternAddr) (x : FrameSlot)
    (j : Nat) (hj : j < 8) (h : j < 2 * made ∨ 2 * (made + n) ≤ j) :
    (deliverBlock m p n made a x).payload[j] = x.payload[j] := by
  induction n generalizing made a x with
  | zero => rfl
  | succ n ih => rw [deliverBlock, ih _ _ _ (by omega), deliver_payload, if_neg (by omega), if_neg (by omega)]

/-- Word `i` of a block stands where its move put it. -/
theorem deliverBlock_payload_word (m : Memory 16) (p : Program) (n made i : Nat) (a : PatternAddr) (x : FrameSlot)
    (hi : i < n) (h4 : made + i < 4) :
    (deliverBlock m p n made a x).payload[2 * (made + i)] = lowByte (Memory.read m ((advance p)^[i] a).toNat) ∧
    (deliverBlock m p n made a x).payload[2 * (made + i) + 1] =
      highByte (Memory.read m ((advance p)^[i] a).toNat) := by
  induction n generalizing made i a x with
  | zero => omega
  | succ n ih =>
    cases i with
    | zero =>
      simp only [deliverBlock, Nat.add_zero, Function.iterate_zero, id_eq]
      rw [deliverBlock_payload_outside _ _ _ _ _ _ _ _ (by omega),
        deliverBlock_payload_outside _ _ _ _ _ _ _ _ (by omega), deliver_payload, deliver_payload, if_pos rfl,
        if_neg (by omega), if_pos rfl]
      exact ⟨rfl, rfl⟩
    | succ i =>
      have hword := ih (made + 1) i (advance p a) (x.deliver made (Memory.read m a.toNat)) (by omega) (by omega)
      simp only [show made + 1 + i = made + (i + 1) by omega] at hword
      exact hword

/-! ### The moves of the block (R72) -/

theorem trigger_cases (s : State) (c : Fin 8) : (s.trigger c).channel c = s.channel c ∨
    ∃ b, (s.channel c).takesTrigger = true ∧ (s.trigger c).channel c = asked (s.channel c) b := by
  cases htakes : (s.channel c).takesTrigger with
  | false => exact Or.inl (by rw [trigger_ignored htakes])
  | true =>
    cases hp : s.channelProgram c with
    | none => exact Or.inl (by simp only [State.trigger, hp])
    | some p => exact Or.inr ⟨p.block, rfl, by rw [trigger_taken hp htakes, channel_setChannel_same]⟩

theorem asked_frameTriggered {ch : Channel} (h : ch.takesTrigger = true) (b : Nat) :
    (asked ch b).frameTriggered k f = ch.frameTriggered k f := by
  have hbound := takesTrigger_bound h
  simp only [Channel.frameTriggered, Channel.onSeat, asked, bne_iff_ne.mpr hbound]
  rfl

/-- A move leaves another channel as little, or as much, triggered by a slot as it was (R72, R79). -/
theorem makeMove_frameTriggered {tg : Target} (hd : d ≠ c) :
    ((s.makeMove c k tg p).channel d).frameTriggered k f = (s.channel d).frameTriggered k f := by
  rw [makeMove_channel_other hd]
  by_cases hlast : (s.channel c).remaining - 1 = 0
  · have hsame := reloadedMove_channel_other (s := s) (k := k) (tg := tg) (p := p) hd
    have hchained : ((reloadedMove s c k tg p).chainEnd c k).channel d = (reloadedMove s c k tg p).channel d ∨
        ((reloadedMove s c k tg p).chainEnd c k).channel d = ((reloadedMove s c k tg p).trigger d).channel d := by
      unfold State.chainEnd
      split
      · split
        · rw [chainFrom_channel, chainOne]
          split
          · exact Or.inr rfl
          · exact Or.inl rfl
        · exact Or.inl rfl
      · exact Or.inl rfl
    rw [endedMove_channel_other hd hlast]
    rcases hchained with h | h
    · rw [h, hsame]
    · rcases trigger_cases (reloadedMove s c k tg p) d with h' | ⟨b, htakes, h'⟩
      · rw [h, h', hsame]
      · rw [h, h', asked_frameTriggered htakes, hsame]
  · rw [endedMove, if_neg hlast, markedMove_channel_other hd]

/-- Channel `c` has `n` moves of a block on slot `f` of its seat to make, all of them granted, and no transaction ends
before the last. -/
structure OwnBlock (s : State) (c : Fin 8) (k : Fin 4) (f : Fin 8) (p : Program) (n : Nat) : Prop where
  state : (s.channel c).state = .running
  seat : (s.channel c).seat = some k
  target : (s.channel c).target = some (.fs f)
  program : s.channelProgram c = some p
  outstanding : (s.channel c).outstanding = n
  fits : n ≤ (s.channel c).remaining
  granted : ∀ i, i < n → ∃ q, (s.record k).owner = some q ∧
    (s.grant (regionOf ((advance p)^[i] (s.channel c).address))).grants q = true

theorem OwnBlock.bound (h : OwnBlock s c k f p n) : (s.channel c).state ≠ .free := by rw [h.state]; exact fun e => nomatch e

theorem OwnBlock.move (h : OwnBlock s c k f p (n + 1)) : s.moveOnce c = (s.makeMove c k (.fs f) p, false) := by
  rw [moveOnce_eq h.bound h.seat h.target h.program, moveGranted_iff.mpr (h.granted 0 (Nat.succ_pos n)), if_pos rfl]

/-- After a move that is not the last, one move fewer is left. -/
theorem OwnBlock.next (h : OwnBlock s c k f p (n + 2)) : OwnBlock (s.makeMove c k (.fs f) p) c k f p (n + 1) := by
  have hfits := h.fits
  have hw := works_makeMove (T := fun _ => False) c k (.fs f) p h.bound
  have hchannel := makeMove_channel_counted (s := s) (c := c) (k := k) (tg := .fs f) (p := p) (by omega)
  have hprogram : (s.makeMove c k (.fs f) p).channelProgram c = s.channelProgram c := by
    unfold State.channelProgram
    rw [hchannel]
    simp only [Channel.counted, hw.programs]
  refine ⟨?_, ?_, ?_, hprogram.trans h.program, ?_, ?_, fun i hi => ?_⟩
  · rw [hchannel]; rfl
  · rw [hchannel]; exact h.seat
  · rw [hchannel]; exact h.target
  · rw [hchannel]; simp [h.outstanding]
  · rw [hchannel]; simp only [Channel.counted]; omega
  · obtain ⟨q, howner, hgrant⟩ := h.granted (i + 1) (by omega)
    refine ⟨q, (hw.owner k).trans howner, ?_⟩
    rw [works_grant hw, hchannel]
    exact hgrant

/-- What the moves of a block on its own slot leave: the channel's record, the slot's words, and the other channels. -/
structure BlockMade (s t : State) (c : Fin 8) (k : Fin 4) (f : Fin 8) (p : Program) (n : Nat) : Prop where
  outstanding : (t.channel c).outstanding = 0
  state : (t.channel c).state = if n = (s.channel c).remaining ∧ p.mode = .oneShot then .done else .running
  remaining : (t.channel c).remaining = if n = (s.channel c).remaining then p.count else (s.channel c).remaining - n
  frame : t.frame k f = deliverBlock s.pattern p n (s.channel c).made (s.channel c).address (s.frame k f)
  clock : t.clock = s.clock
  others : ∀ d, d ≠ c → (t.channel d).frameTriggered k f = (s.channel d).frameTriggered k f

/-- The last move of a block ends the transaction exactly when it uses up the remaining count. -/
theorem OwnBlock.last (h : OwnBlock s c k f p 1) : BlockMade s (s.makeMove c k (.fs f) p) c k f p 1 := by
  have hfits := h.fits
  have hout : (s.channel c).outstanding ≠ 0 := by rw [h.outstanding]; exact Nat.one_ne_zero
  obtain ⟨-, hframe, -⟩ := makeMove_seat s c k (.fs f) p
  have hclock := (works_makeMove (T := fun _ => False) c k (.fs f) p h.bound).clock
  have hothers : ∀ d, d ≠ c → _ := fun d hd => makeMove_frameTriggered (s := s) (k := k) (f := f) (p := p) (tg := .fs f) hd
  by_cases hlast : (s.channel c).remaining = 1
  · have hchannel := makeMove_channel_ended (s := s) (c := c) (k := k) (tg := .fs f) (p := p) (by omega) hout
    refine ⟨?_, ?_, ?_, hframe f rfl, hclock, hothers⟩ <;> rw [hchannel]
    · simp [h.outstanding]
    · simp [hlast]
    · simp [hlast, Channel.reload]
  · have hchannel := makeMove_channel_counted (s := s) (c := c) (k := k) (tg := .fs f) (p := p) (by omega)
    refine ⟨?_, ?_, ?_, hframe f rfl, hclock, hothers⟩ <;> rw [hchannel]
    · simp [h.outstanding]
    · simp [Ne.symm hlast, Channel.counted]
    · simp [Ne.symm hlast, Channel.counted]

theorem OwnBlock.made (h : OwnBlock s c k f p (n + 1)) :
    ∃ t, s.runBlock c (n + 1) = (t, false) ∧ BlockMade s t c k f p (n + 1) := by
  induction n generalizing s with
  | zero =>
    refine ⟨_, ?_, h.last⟩
    simp [State.runBlock, h.outstanding, h.move]
  | succ n ih =>
    have hfits := h.fits
    have hw := works_makeMove (T := fun _ => False) c k (.fs f) p h.bound
    have hchannel := makeMove_channel_counted (s := s) (c := c) (k := k) (tg := .fs f) (p := p) (by omega)
    obtain ⟨-, hframe, -⟩ := makeMove_seat s c k (.fs f) p
    obtain ⟨t, hrun, hmade⟩ := ih h.next
    have hremaining : ((s.makeMove c k (.fs f) p).channel c).remaining = (s.channel c).remaining - 1 := by rw [hchannel]; rfl
    have hused : n + 1 = (s.channel c).remaining - 1 ↔ n + 1 + 1 = (s.channel c).remaining := by omega
    refine ⟨t, ?_, hmade.outstanding, ?_, ?_, ?_, hmade.clock.trans hw.clock, fun d hd => ?_⟩
    · rw [State.runBlock, h.outstanding, h.move]
      simpa using hrun
    · rw [hmade.state, hremaining]; simp only [hused]
    · rw [hmade.remaining, hremaining]; simp only [hused]
      split
      · rfl
      · omega
    · rw [hmade.frame, hframe f rfl, hw.pattern, hchannel]
      rfl
    · rw [hmade.others d hd, makeMove_frameTriggered hd]

end Steps
end Machine
end Sys2Proof
end

section
/-! A due of a frame slot and the completion of a transmission (R96 to R99). -/

namespace Sys2Proof
namespace Machine
namespace Steps

variable {s : State} {c d : Fin 8} {k : Fin 4} {f g : Fin 8} {p : Program} {t0 : Instant} {ack : Bool}

theorem frameTriggered_iff (ch : Channel) (k : Fin 4) (f : Fin 8) : ch.frameTriggered k f = true ↔
    ch.state ≠ .free ∧ ch.seat = some k ∧ ch.trigger = some (.frame f) := by
  simp [Channel.frameTriggered, onSeat_iff, and_assoc]

/-! ### A due (R96) -/

/-- The state in which a transmission of slot `f` starts at its due: the next due raised, nothing pending. -/
def dueTaken (s : State) (k : Fin 4) (f : Fin 8) (t0 : Instant) : State :=
  s.setFrame k f { s.frame k f with pending := false, nextDue := some (t0.afterMs (s.frame k f).period) }

@[simp] theorem dueTaken_channel : (dueTaken s k f t0).channel c = s.channel c := by simp [dueTaken]

theorem dueTaken_frame : (dueTaken s k f t0).frame k f =
    { s.frame k f with pending := false, nextDue := some (t0.afterMs (s.frame k f).period) } := frame_setFrame_same _ _ _ _

theorem exec_frameSlotDue (hnext : (s.frame k f).nextDue = some t0) (hdue : Instant.reached s.clock t0 = true) :
    exec (.frameSlotDue k f) s = .next (takeRefusal? ((s.setFrame k f { s.frame k f with
      pending := true, nextDue := some (t0.afterMs (s.frame k f).period) }).transmitArbiter k)) := by
  have hready : s.frameDueReady k f = true := by simp only [State.frameDueReady, hnext, hdue]
  have htaken : (s.frame k f).takeDue =
      { s.frame k f with pending := true, nextDue := some (t0.afterMs (s.frame k f).period) } := by
    simp only [FrameSlot.takeDue, hnext]
    rfl
  change whenDue s (s.frameDueReady k f) (s.takeFrameDue k f) = _
  rw [hready, whenDue_true, State.takeFrameDue, htaken]

/-- On a link that is SENDING the slot becomes or stays pending. -/
theorem exec_frameSlotDue_busy (hnext : (s.frame k f).nextDue = some t0) (hdue : Instant.reached s.clock t0 = true)
    (hbusy : (s.seat k).link ≠ .idle) : exec (.frameSlotDue k f) s = .next (s.setFrame k f { s.frame k f with
      pending := true, nextDue := some (t0.afterMs (s.frame k f).period) }) := by
  rw [exec_frameSlotDue hnext hdue, transmitArbiter_busy (by simpa using hbusy)]
  rfl

/-- On an IDLE link in TESTING with no other slot pending, its transmission starts with its FRAME trigger. -/
theorem exec_frameSlotDue_starts (hnext : (s.frame k f).nextDue = some t0) (hdue : Instant.reached s.clock t0 = true)
    (hidle : (s.seat k).link = .idle) (htesting : (s.record k).state = .testing)
    (hothers : ∀ g, g ≠ f → (s.frame k g).pending = false) :
    exec (.frameSlotDue k f) s = .next (takeRefusal? (((dueTaken s k f t0).frameTrigger k f).1.sendFrame k f,
      ((dueTaken s k f t0).frameTrigger k f).2)) := by
  have hchosen : chooseSlot ((s.setFrame k f { s.frame k f with
      pending := true, nextDue := some (t0.afterMs (s.frame k f).period) }).seat k).frames = some f := by
    refine chooseSlot_only ?_ fun g hg => ?_
    · exact congrArg FrameSlot.pending (frame_setFrame_same s k f _)
    · exact (congrArg FrameSlot.pending (frame_setFrame_other s k f g _ hg)).trans (hothers g hg)
  rw [exec_frameSlotDue hnext hdue, transmitArbiter_starts (by simpa using hidle) (by simpa [State.record] using htesting)
    hchosen]
  unfold State.startTransmission
  dsimp only
  rw [frame_setFrame_same, setFrame_setFrame]
  rfl

/-- The frame of a slot whose payload no channel has written. -/
theorem sendFrame_dueTaken {u : State} (hframe : u.frame k f = (dueTaken s k f t0).frame k f) (hclock : u.clock = s.clock) :
    u.sendFrame k f = u.setLink k (.sending f (s.frame k f).ident
      ((s.frame k f).payload.toList.take (s.frame k f).length)
      (s.clock.afterUs (100 + 16 * min (s.frame k f).length 8))) := by
  rw [sendFrame_eq, hframe, dueTaken_frame, hclock]

/-! ### The FRAME trigger of a single channel (R72, R97) -/

/-- A channel on another target is asked for its block. -/
theorem frameTriggerOne_asks {x : Target} (hframe : (s.channel c).frameTriggered k f = true)
    (htarget : (s.channel c).target = some x) (hx : x ≠ .fs f) (htakes : (s.channel c).takesTrigger = true)
    (hp : s.channelProgram c = some p) :
    frameTriggerOne k f (s, none) c = (s.setChannel c (asked (s.channel c) p.block), none) := by
  unfold frameTriggerOne
  simp only [hframe, htarget, Option.some.injEq, hx, if_true, decide_false, Bool.false_and, Bool.false_eq_true,
    if_false, trigger_taken hp htakes]

/-- A channel on the slot itself makes its whole block. -/
theorem frameTriggerOne_makes {n : Nat} {t : State} (hframe : (s.channel c).frameTriggered k f = true)
    (htarget : (s.channel c).target = some (.fs f)) (htakes : (s.channel c).takesTrigger = true)
    (hp : s.channelProgram c = some p) (hn : min p.block (s.channel c).remaining = n)
    (hrun : (s.setChannel c (asked (s.channel c) p.block)).runBlock c n = (t, false)) :
    frameTriggerOne k f (s, none) c = (t, none) := by
  have hout : (asked (s.channel c) p.block).outstanding = n := hn
  unfold frameTriggerOne
  simp only [hframe, htarget, htakes, if_true, decide_true, Bool.true_and, trigger_taken hp htakes,
    channel_setChannel_same, hout, hrun]
  rfl

/-- A channel asked for a block on its own slot has its moves to make. -/
theorem ownBlock_asked {n : Nat} (hseat : (s.channel c).seat = some k) (htarget : (s.channel c).target = some (.fs f))
    (hp : s.channelProgram c = some p) (hn : min p.block (s.channel c).remaining = n)
    (hgranted : ∀ i, i < n → ∃ q, (s.record k).owner = some q ∧
      (s.grant (regionOf ((advance p)^[i] (s.channel c).address))).grants q = true) :
    OwnBlock (s.setChannel c (asked (s.channel c) p.block)) c k f p n := by
  have hchannel := channel_setChannel_same s c (asked (s.channel c) p.block)
  refine ⟨?_, ?_, ?_, (channelProgram_setChannel (by rfl)).trans hp, ?_, ?_, ?_⟩ <;> simp only [hchannel]
  · rfl
  · exact hseat
  · exact htarget
  · exact hn
  · exact hn ▸ Nat.min_le_right _ _
  · exact hgranted

/-- The whole block of the slot's own channel, its words in the frame that is sent (R72, R76, R97). -/
theorem exec_frameSlotDue_ownBlock {n : Nat} (hnext : (s.frame k f).nextDue = some t0)
    (hdue : Instant.reached s.clock t0 = true) (hidle : (s.seat k).link = .idle)
    (htesting : (s.record k).state = .testing) (hothers : ∀ g, g ≠ f → (s.frame k g).pending = false)
    (hframe : (s.channel c).frameTriggered k f = true)
    (honly : ∀ d, d ≠ c → (s.channel d).frameTriggered k f = false)
    (htakes : (s.channel c).takesTrigger = true) (htarget : (s.channel c).target = some (.fs f))
    (hp : s.channelProgram c = some p) (hn : min p.block (s.channel c).remaining = n + 1)
    (hgranted : ∀ i, i < n + 1 → ∃ q, (s.record k).owner = some q ∧
      (s.grant (regionOf ((advance p)^[i] (s.channel c).address))).grants q = true) :
    ∃ t, exec (.frameSlotDue k f) s = .next (t.sendFrame k f) ∧
      BlockMade ((dueTaken s k f t0).setChannel c (asked (s.channel c) p.block)) t c k f p (n + 1) := by
  have hp' : (dueTaken s k f t0).channelProgram c = some p := hp
  have hblock := ownBlock_asked (s := dueTaken s k f t0) (k := k) (f := f) (p := p) (c := c) (n := n + 1)
    (by rw [dueTaken_channel]; exact ((frameTriggered_iff _ k f).mp hframe).2.1) (by rw [dueTaken_channel, htarget]) hp'
    (by rw [dueTaken_channel, hn]) (by simpa [dueTaken, State.record] using hgranted)
  obtain ⟨t, hrun, hmade⟩ := hblock.made
  have hone := frameTriggerOne_makes (k := k) (f := f) (by rw [dueTaken_channel, hframe])
    (by rw [dueTaken_channel, htarget]) (by rw [dueTaken_channel, htakes]) hp' (by rw [dueTaken_channel, hn]) hrun
  have htrigger : (dueTaken s k f t0).frameTrigger k f = (t, none) := by
    rw [frameTrigger_one (c := c), hone]
    · exact fun d hd => by rw [dueTaken_channel, honly d hd]
    · intro d hd
      rw [hone]
      refine (hmade.others d hd).trans ?_
      rw [channel_setChannel_other _ _ _ _ hd, dueTaken_channel, honly d hd]
  refine ⟨t, ?_, by rw [dueTaken_channel] at hmade; exact hmade⟩
  rw [exec_frameSlotDue_starts hnext hdue hidle htesting hothers, htrigger]
  rfl

/-- The slot after its block: the words from position 0 on. -/
def ownFrame (s : State) (c : Fin 8) (k : Fin 4) (f : Fin 8) (p : Program) (t0 : Instant) (n : Nat) : FrameSlot :=
  deliverBlock s.pattern p n 0 (s.channel c).address ((dueTaken s k f t0).frame k f)

/-- The frame that is sent carries the block's words (R76, R97). -/
theorem BlockMade.sent {t : State} {b n : Nat}
    (h : BlockMade ((dueTaken s k f t0).setChannel c (asked (s.channel c) b)) t c k f p n) :
    (t.sendFrame k f).frame k f = ownFrame s c k f p t0 n ∧ ((t.sendFrame k f).seat k).link =
      .sending f (s.frame k f).ident ((ownFrame s c k f p t0 n).payload.toList.take (s.frame k f).length)
        (s.clock.afterUs (100 + 16 * min (s.frame k f).length 8)) := by
  have hslot : t.frame k f = ownFrame s c k f p t0 n := by
    have hframe := h.frame
    rw [channel_setChannel_same] at hframe
    exact hframe
  have hclock : t.clock = s.clock := h.clock
  have hident : (ownFrame s c k f p t0 n).ident = (s.frame k f).ident :=
    (deliverBlock_settings _ p n 0 _ _).1.trans (by rw [dueTaken_frame])
  have hlength : (ownFrame s c k f p t0 n).length = (s.frame k f).length :=
    (deliverBlock_settings _ p n 0 _ _).2.1.trans (by rw [dueTaken_frame])
  rw [sendFrame_eq, setLink_frame, hslot, hident, hlength, hclock]
  exact ⟨rfl, by simp [State.setLink]⟩

theorem ownFrame_pending (n : Nat) : (ownFrame s c k f p t0 n).pending = false :=
  (deliverBlock_settings _ p n 0 _ _).2.2.trans (by rw [dueTaken_frame])

/-- Word `i` of the block stands low byte first at positions `2i` and `2i + 1`. -/
theorem ownFrame_word {n : Nat} (i : Fin 4) (hi : i.val < n) :
    (ownFrame s c k f p t0 n).payload[2 * i.val]'(by omega) =
      lowByte (Memory.read s.pattern ((advance p)^[i.val] (s.channel c).address).toNat) ∧
    (ownFrame s c k f p t0 n).payload[2 * i.val + 1]'(by omega) =
      highByte (Memory.read s.pattern ((advance p)^[i.val] (s.channel c).address).toNat) := by
  have hword := deliverBlock_payload_word s.pattern p n 0 i.val (s.channel c).address ((dueTaken s k f t0).frame k f) hi
    (by omega)
  simp only [Nat.zero_add] at hword
  exact hword

/-- Positions behind the block's words stay. -/
theorem ownFrame_behind {n : Nat} (j : Fin 8) (hj : 2 * n ≤ j.val) :
    (ownFrame s c k f p t0 n).payload[j] = (s.frame k f).payload[j] := by
  refine (deliverBlock_payload_outside s.pattern p n 0 _ _ j.val j.isLt (Or.inr (by omega))).trans ?_
  rw [dueTaken_frame]
  rfl

/-- A channel on another target is asked for its block as the transmission starts (R72, R97). -/
theorem exec_frameSlotDue_asks {x : Target} (hnext : (s.frame k f).nextDue = some t0)
    (hdue : Instant.reached s.clock t0 = true) (hidle : (s.seat k).link = .idle)
    (htesting : (s.record k).state = .testing) (hothers : ∀ g, g ≠ f → (s.frame k g).pending = false)
    (hframe : (s.channel c).frameTriggered k f = true)
    (honly : ∀ d, d ≠ c → (s.channel d).frameTriggered k f = false)
    (htakes : (s.channel c).takesTrigger = true) (htarget : (s.channel c).target = some x) (hx : x ≠ .fs f)
    (hp : s.channelProgram c = some p) : exec (.frameSlotDue k f) s =
      .next (((dueTaken s k f t0).setChannel c (asked (s.channel c) p.block)).setLink k (.sending f (s.frame k f).ident
        ((s.frame k f).payload.toList.take (s.frame k f).length)
        (s.clock.afterUs (100 + 16 * min (s.frame k f).length 8)))) := by
  have hone := frameTriggerOne_asks (s := dueTaken s k f t0) (k := k) (f := f) (c := c) (x := x) (p := p)
    (by rw [dueTaken_channel, hframe]) (by rw [dueTaken_channel, htarget]) hx (by rw [dueTaken_channel, htakes]) hp
  have htrigger : (dueTaken s k f t0).frameTrigger k f =
      ((dueTaken s k f t0).setChannel c (asked (s.channel c) p.block), none) := by
    rw [frameTrigger_one (c := c), hone, dueTaken_channel]
    · exact fun d hd => by rw [dueTaken_channel, honly d hd]
    · intro d hd
      rw [hone]
      exact (congrArg (Channel.frameTriggered · k f) (channel_setChannel_other _ _ _ _ hd)).trans
        (by rw [dueTaken_channel, honly d hd])
  rw [exec_frameSlotDue_starts hnext hdue hidle htesting hothers, htrigger]
  exact congrArg Host.Outcome.next (sendFrame_dueTaken rfl rfl)

/-! ### Completion (R97 to R99) -/

theorem exec_transmissionComplete {ident : BitVec 11} {data : List Byte} {done : Instant}
    (hlink : (s.seat k).link = .sending f ident data done) (hdone : Instant.reached s.clock done = true) :
    exec (.transmissionComplete k ack) s = .next (takeRefusal? ((s.endTransmission k f ack).transmitArbiter k)) := by
  have hslot : s.completedSlot k = some f := by simp only [State.completedSlot, hlink, hdone, if_true]
  change execTransmissionComplete k ack s = _
  unfold execTransmissionComplete
  rw [hslot]

/-- The outcome is recorded in its slot and in nothing else of any slot (R98). -/
theorem endTransmission_frame (g : Fin 8) : (s.endTransmission k f ack).frame k g =
    if g = f then { s.frame k f with last := if ack then .ack else .noAck } else s.frame k g := by
  rw [State.endTransmission, setLink_frame, frame_setFrame]

theorem endTransmission_keeps (g : Fin 8) :
    ((s.endTransmission k f ack).frame k g).pending = (s.frame k g).pending ∧
    ((s.endTransmission k f ack).frame k g).ident = (s.frame k g).ident ∧
    ((s.endTransmission k f ack).frame k g).length = (s.frame k g).length ∧
    ((s.endTransmission k f ack).frame k g).payload = (s.frame k g).payload := by
  rw [endTransmission_frame]
  split
  · next h => subst h; exact ⟨rfl, rfl, rfl, rfl⟩
  · exact ⟨rfl, rfl, rfl, rfl⟩

theorem endTransmission_record : (s.endTransmission k f ack).record k = s.record k := by
  simp [State.endTransmission, State.record]

/-- Outside TESTING, or with no slot pending, the link stays IDLE (R98, R99). -/
theorem exec_transmissionComplete_rests {ident : BitVec 11} {data : List Byte} {done : Instant}
    (hlink : (s.seat k).link = .sending f ident data done) (hdone : Instant.reached s.clock done = true)
    (h : (s.record k).state ≠ .testing ∨ ∀ g, (s.frame k g).pending = false) :
    exec (.transmissionComplete k ack) s = .next (s.endTransmission k f ack) := by
  rw [exec_transmissionComplete hlink hdone, transmitArbiter_rests]
  · rfl
  · rw [endTransmission_record]
    exact h.imp_right fun h g => (endTransmission_keeps g).1.trans (h g)

/-- In TESTING the best pending slot is sent next (R97). -/
theorem exec_transmissionComplete_sends {ident : BitVec 11} {data : List Byte} {done : Instant}
    (hlink : (s.seat k).link = .sending f ident data done) (hdone : Instant.reached s.clock done = true)
    (htesting : (s.record k).state = .testing) (hg : (s.frame k g).pending = true)
    (hbest : ∀ h, (s.frame k h).pending = true → (s.frame k g).ident.toNat < (s.frame k h).ident.toNat ∨
      ((s.frame k g).ident = (s.frame k h).ident ∧ g ≤ h))
    (hnone : ∀ c, (s.channel c).frameTriggered k g = false) : exec (.transmissionComplete k ack) s =
      .next (((s.endTransmission k f ack).setFrame k g
        { (s.endTransmission k f ack).frame k g with pending := false }).setLink k
        (.sending g (s.frame k g).ident ((s.frame k g).payload.toList.take (s.frame k g).length)
          (s.clock.afterUs (100 + 16 * min (s.frame k g).length 8)))) := by
  obtain ⟨hpending, hident, hlength, hpayload⟩ := endTransmission_keeps (s := s) (k := k) (f := f) (ack := ack) g
  have hchosen : chooseSlot ((s.endTransmission k f ack).seat k).frames = some g := by
    refine chooseSlot_best (hpending.trans hg) fun h hh => ?_
    obtain ⟨hpending', hident', -, -⟩ := endTransmission_keeps (s := s) (k := k) (f := f) (ack := ack) h
    have hbetter := hbest h (hpending'.symm.trans hh)
    rw [← hident, ← hident'] at hbetter
    exact hbetter
  rw [exec_transmissionComplete hlink hdone, transmitArbiter_starts (by simp [State.endTransmission])
    (by rw [endTransmission_record, htesting]) hchosen,
    startTransmission_untriggered (by simpa [State.endTransmission] using hnone), hident, hlength, hpayload]
  rfl

/-- Settles O46: the arbiter waits or sends its choice, and the FRAME trigger of the slot sent comes first. -/
theorem frameTransmission : Obligations.FrameTransmission := by
  refine ⟨fun s k f t0 hnext hdue => ⟨exec_frameSlotDue_busy hnext hdue, fun hidle htesting hothers hnone => ?_,
    fun c x p b hidle htesting hothers honly hstate hout htarget hp hb hb1 => ?_⟩,
    fun s k f ident data done ack hlink hdone =>
      ⟨exec_transmissionComplete_rests hlink hdone, fun g u htesting hg hbest hnone hu => ?_⟩⟩
  · rw [exec_frameSlotDue_starts hnext hdue hidle htesting hothers, frameTrigger_none (by simpa using hnone)]
    exact congrArg Host.Outcome.next (sendFrame_dueTaken rfl rfl)
  · have hframe : (s.channel c).frameTriggered k f = true := (frameTriggered_iff _ k f).mpr ((honly c).mpr rfl)
    have hrest : ∀ d, d ≠ c → (s.channel d).frameTriggered k f = false := fun d hd =>
      Bool.eq_false_of_not_eq_true fun h => hd ((honly d).mp ((frameTriggered_iff _ k f).mp h))
    have htakes := (takesTrigger_iff (s.channel c)).mpr ⟨hstate, hout⟩
    refine ⟨fun hx => ?_, fun hx hgranted => ?_⟩
    · rw [exec_frameSlotDue_asks hnext hdue hidle htesting hothers hframe hrest htakes htarget hx hp, hb]
      rfl
    · subst hx
      obtain ⟨n, rfl⟩ : ∃ n, b = n + 1 := ⟨b - 1, by omega⟩
      obtain ⟨t, hexec, hmade⟩ := exec_frameSlotDue_ownBlock hnext hdue hidle htesting hothers hframe hrest htakes htarget
        hp hb.symm hgranted
      obtain ⟨hsent, hlink⟩ := hmade.sent
      have hafter := hmade.state
      have hremaining := hmade.remaining
      rw [channel_setChannel_same] at hafter hremaining
      refine ⟨_, hexec, hmade.outstanding, hafter, hremaining, ?_⟩
      rw [hsent]
      exact ⟨ownFrame_word, ownFrame_behind, ownFrame_pending _, hlink⟩
  · subst hu
    rw [exec_transmissionComplete_sends hlink hdone htesting hg hbest hnone, State.endTransmission, setLink_frame,
      setLink_setFrame_setLink]

end Steps
end Machine
end Sys2Proof
end

section
/-! What a word delivered to a seat's output makes of it (R86 to R89). -/

namespace Sys2Proof
namespace Machine
namespace Steps

variable {w : Word}

/-! ### The digital lines (R89) -/

theorem getLsbD_highByte {j : Nat} (hj : j < 8) : (highByte w).getLsbD j = w.getLsbD (8 + j) := by
  simp [highByte, hj]

theorem getLsbD_lowByte {j : Nat} (hj : j < 8) : (lowByte w).getLsbD j = w.getLsbD j := by
  simp [lowByte, hj]

/-- A masked line takes its level and any other line holds. -/
theorem linesOut_take_getLsbD (o : LinesOut) {j : Nat} (hj : j < 8) : (o.take w).live.getLsbD j =
    if w.getLsbD (8 + j) then w.getLsbD j else o.live.getLsbD j := by
  simp only [LinesOut.take, BitVec.getLsbD_or, BitVec.getLsbD_and, BitVec.getLsbD_not, getLsbD_highByte hj,
    getLsbD_lowByte hj, hj, decide_true, Bool.true_and]
  cases w.getLsbD (8 + j) <;> simp

/-! ### The analog outputs (R87) -/

theorem analogOut_take_toNat (o : AnalogOut) : (o.take w).live.toNat = min w.toNat 4095 := by
  unfold AnalogOut.take
  dsimp only
  split
  · next hw =>
    rw [BitVec.toNat_setWidth, Nat.mod_eq_of_lt hw]
    omega
  · next hw =>
    rw [Nat.min_eq_right (by omega)]
    rfl

theorem analogOut_volts_zero (o : AnalogOut) : ({ o with live := 0 } : AnalogOut).volts = 0 := by
  simp [AnalogOut.volts]

theorem analogOut_volts_eq (o : AnalogOut) : o.volts = (o.live.toNat : Rat) * (5 / 2) / 4096 :=
  (mul_div_assoc _ _ _).symm

/-! ### The frequency outputs (R88) -/

theorem freqPeriod_toNat (hw : w ≠ 0) : (freqPeriod w).toNat = max w.toNat 20 := by
  rw [freqPeriod, if_neg hw]
  split
  · next h => exact (Nat.max_eq_right h.le).symm
  · next h => exact (Nat.max_eq_left (Nat.le_of_not_lt h)).symm

theorem freqPeriod_ne_zero (hw : w ≠ 0) : freqPeriod w ≠ 0 := by
  rw [freqPeriod, if_neg hw]
  split
  · decide
  · exact hw

theorem freqOut_take_zero (o : FreqOut) : o.take 0 = { o with live := 0, cycle := none } := rfl

/-- A period runs at once from rest, and after the cycle in progress otherwise. -/
theorem freqOut_take_period (o : FreqOut) (hw : w ≠ 0) : o.take w =
    { o with live := freqPeriod w, cycle := some (o.cycle.getD { period := max w.toNat 20, elapsed := 0 }) } := by
  simp only [FreqOut.take, if_neg (freqPeriod_ne_zero hw), freqPeriod_toNat hw]
  cases o.cycle <;> rfl

theorem freqOut_take_toNat (o : FreqOut) : (o.take w).live.toNat = if w = 0 then 0 else max w.toNat 20 := by
  by_cases hw : w = 0
  · rw [if_pos hw, hw, freqOut_take_zero]
    rfl
  · rw [if_neg hw, freqOut_take_period o hw]
    exact freqPeriod_toNat hw

/-- Settles O44, output by output. -/
theorem wordsDeliveredToOutputs : Obligations.WordsDeliveredToOutputs := by
  refine ⟨fun o _ _ hj => linesOut_take_getLsbD o hj, fun _ => ?_, fun o => rfl, fun o w => ?_, fun o c => ?_,
    fun o _ => freqOut_take_toNat o, fun o => congrArg FreqOut.cycle (freqOut_take_zero o),
    fun o w x hw hx => ?_, fun o w hw hrest => ?_⟩
  · change (0xF0 &&& ~~~highByte 0x0F05) ||| (lowByte 0x0F05 &&& highByte 0x0F05) = 0xF5
    decide
  · have hlive := analogOut_take_toNat (w := w) o
    exact ⟨hlive, by rw [AnalogOut.volts, hlive]⟩
  · refine ⟨fun hc => ?_, analogOut_volts_eq _, analogOut_volts_zero o.ao0, analogOut_volts_zero o.ao1⟩
    rw [hc, analogOut_volts_zero]
  · rw [freqOut_take_period o hw, hx]
    rfl
  · rw [freqOut_take_period o hw, hrest]
    rfl

end Steps
end Machine
end Sys2Proof
end

section
/-! SET_OUTPUT and SET_FRAME_SLOT (R91, R95, R96). -/

namespace Sys2Proof
namespace Machine
namespace Steps

variable {s : State} {p : Port} {k : Fin 4} {f : Fin 8} {o lo hi : Byte} {tg : Target}

/-! ### SET_OUTPUT (R91) -/

theorem setOutputArg_eq (k : Fin 4) (o lo hi : Byte) : setOutputArg [byteOf k.val, o, lo, hi] =
    (outputArg o).map fun tg => (k, tg, word16 lo hi) := by
  simp only [setOutputArg, finArg_byteOf (by decide : 4 ≤ 256)]
  cases outputArg o <;> rfl

theorem outputArg_none (h : 5 ≤ o.toNat) : outputArg o = none := if_neg (Nat.not_lt.mpr h)

theorem outputArg_listed (h : (o, tg) ∈ [((0 : Byte), Target.ao0), (1, .ao1), (2, .fo0), (3, .fo1), (4, .dl)]) :
    outputArg o = some tg := by
  have hall : ∀ x ∈ [((0 : Byte), Target.ao0), (1, .ao1), (2, .fo0), (3, .fo1), (4, .dl)], outputArg x.1 = some x.2 := by
    decide
  exact hall _ h

theorem takesOutput_iff (st : SeatState) : st.takesOutput = true ↔ st = .powered ∨ st = .testing ∨ st = .hold := by
  cases st <;> decide

/-- An output is driven while a channel of its seat is bound to it (R67). -/
theorem driver_isNone_iff : (s.driver k tg).isNone = true ↔
    ∀ c, (s.channel c).state ≠ .free → (s.channel c).seat = some k → (s.channel c).target ≠ some tg := by
  simp [State.driver, mem_ids8, onSeat_iff]

/-- SET_OUTPUT from the owner: the state and the driver of the output are looked at in this order. -/
theorem exec_setOutput (h : s.takes p) (ho : (s.record k).owner = some p) (htg : outputArg o = some tg) :
    exec (.setOutput p [byteOf k.val, o, lo, hi]) s =
      if (s.record k).state.takesOutput then
        if (s.driver k tg).isNone then answered (s.setOutput k tg (word16 lo hi)) p .ok [] else answered s p .inUse []
      else answered s p .wrongState [] := by
  change command p s (withArg s (setOutputArg _) _) = _
  rw [setOutputArg_eq, htg, Option.map_some, withArg_some, ifOwner_owner ho]
  cases (s.record k).state.takesOutput with
  | false => exact command_taken_pair h _ _ _
  | true =>
    cases (s.driver k tg).isNone with
    | false => exact command_taken_pair h _ _ _
    | true => exact command_taken_pair h _ _ _

theorem exec_setOutput_badParam (h : s.takes p) (ho : 5 ≤ o.toNat) :
    exec (.setOutput p [byteOf k.val, o, lo, hi]) s = answered s p .badParam [] := by
  refine exec_misread rfl h ?_
  rw [operandsRead, setOutputArg_eq, outputArg_none ho]
  rfl

/-! ### SET_FRAME_SLOT (R95, R96) -/

section FrameSlot

variable {en : Bool} {i0 i1 len p0 p1 : Byte} {payload : Vector Byte 8}

/-- The parameter bytes of SET_FRAME_SLOT. -/
def frameSlotParams (k : Fin 4) (f : Fin 8) (en : Bool) (i0 i1 len p0 p1 : Byte) (payload : Vector Byte 8) : List Byte :=
  [byteOf k.val, byteOf f.val, if en then 1 else 0, i0, i1, len, p0, p1] ++ payload.toList

/-- The settings that parameter bytes in range carry. -/
def frameSlotSetting (en : Bool) (i0 i1 len p0 p1 : Byte) (payload : Vector Byte 8) : FrameSlotSetting where
  enable := en
  ident := (word16 i0 i1).setWidth 11
  length := len.toNat
  period := (word16 p0 p1).toNat
  payload := payload

theorem setFrameSlotArg_eq : setFrameSlotArg (frameSlotParams k f en i0 i1 len p0 p1 payload) =
    if (word16 i0 i1).toNat < 2048 ∧ len.toNat ≤ 8 ∧ 1 ≤ (word16 p0 p1).toNat then
      some (k, f, frameSlotSetting en i0 i1 len p0 p1 payload)
    else none := by
  simp only [frameSlotParams, List.cons_append, List.nil_append, setFrameSlotArg, finArg_byteOf (by decide : 4 ≤ 256),
    finArg_byteOf (by decide : 8 ≤ 256), flagArg_ite, vec8Arg_toList, identArg]
  by_cases hident : (word16 i0 i1).toNat < 2048
  · simp only [hident, true_and]
    rfl
  · simp only [hident, false_and, if_false]

theorem exec_setFrameSlot_badParam (h : s.takes p)
    (hbad : 2048 ≤ (word16 i0 i1).toNat ∨ 8 < len.toNat ∨ (word16 p0 p1).toNat = 0) :
    exec (.setFrameSlot p (frameSlotParams k f en i0 i1 len p0 p1 payload)) s = answered s p .badParam [] := by
  refine exec_misread rfl h ?_
  rw [operandsRead, setFrameSlotArg_eq, if_neg (by omega)]
  rfl

theorem exec_setFrameSlot (h : s.takes p) (ho : (s.record k).owner = some p) (hident : (word16 i0 i1).toNat < 2048)
    (hlen : len.toNat ≤ 8) (hperiod : (word16 p0 p1).toNat ≠ 0) :
    exec (.setFrameSlot p (frameSlotParams k f en i0 i1 len p0 p1 payload)) s =
      answered (s.setFrameSlot k f (frameSlotSetting en i0 i1 len p0 p1 payload)) p .ok [] := by
  change command p s (withArg s (setFrameSlotArg _) _) = _
  rw [setFrameSlotArg_eq, if_pos ⟨hident, hlen, Nat.one_le_iff_ne_zero.mpr hperiod⟩, withArg_some, ifOwner_owner ho]
  exact command_taken_pair h _ _ _

/-- The last outcome stays; in TESTING the schedule starts afresh and elsewhere it stays too. -/
theorem setFrameSlot_eq (x : FrameSlotSetting) : s.setFrameSlot k f x = s.setFrame k f
    { enable := x.enable, ident := x.ident, length := x.length, period := x.period, payload := x.payload,
      last := (s.frame k f).last,
      nextDue := if (s.record k).state = .testing then (if x.enable then some (s.clock.afterMs x.period) else none)
                 else (s.frame k f).nextDue,
      pending := if (s.record k).state = .testing then false else (s.frame k f).pending } := by
  by_cases htesting : (s.record k).state = .testing
  · simp only [State.setFrameSlot, if_pos htesting]
    rfl
  · simp only [State.setFrameSlot, if_neg htesting]
    rfl

end FrameSlot

/-- Settles O45: SET_OUTPUT by the state and the driver, SET_FRAME_SLOT by its operands. -/
theorem outputAndFrameSlotCommands : Obligations.OutputAndFrameSlotCommands := by
  refine ⟨fun p k o lo hi s h => ⟨exec_setOutput_badParam h, fun tg hmem ho => ⟨fun hst => ⟨fun hdriven => ?_,
    fun hfree => ?_⟩, fun hpowered htesting hhold => ?_⟩⟩,
    fun p k f en i0 i1 len p0 p1 payload s h ho => ⟨exec_setFrameSlot_badParam h, fun hident hlen hperiod => ?_⟩⟩
  · obtain ⟨c, hbound, hseat, htarget⟩ := hdriven
    rw [exec_setOutput h ho (outputArg_listed hmem), if_pos ((takesOutput_iff _).mpr hst), if_neg]
    exact fun hnone => driver_isNone_iff.mp hnone c hbound hseat htarget
  · rw [exec_setOutput h ho (outputArg_listed hmem), if_pos ((takesOutput_iff _).mpr hst),
      if_pos (driver_isNone_iff.mpr hfree)]
    rfl
  · rw [exec_setOutput h ho (outputArg_listed hmem), if_neg]
    rw [takesOutput_iff]
    rintro (hst | hst | hst)
    · exact hpowered hst
    · exact htesting hst
    · exact hhold hst
  · exact (exec_setFrameSlot h ho hident hlen hperiod).trans (by rw [setFrameSlot_eq]; rfl)

end Steps
end Machine
end Sys2Proof
end

section
/-! A frame received on a link: examined, reported and stored (R100, R135, R141 to R145). -/

namespace Sys2Proof
namespace Machine
namespace Steps

variable {s : State} {k : Fin 4} {c : Capture} {e : Expectation} {ident : BitVec 11} {data : List Byte}

/-! ### The capture unit of a seat as it was set -/

theorem setCapture_self (s : State) (k : Fin 4) : s.setCapture k (s.capture k) = s := setSeat_self s k

theorem setCapture_setCapture (x y : Capture) : (s.setCapture k x).setCapture k y = s.setCapture k y := by
  simp [State.setCapture]

theorem setRunning_setCapture (r : Option Running) (x : Capture) :
    (s.setRunning k r).setCapture k x = (s.setCapture k x).setRunning k r := by
  simp [State.setCapture, State.setRunning]

/-! ### Storage (R135) -/

/-- A record joins the capture queue, or sets the overflow flag of a full one. -/
def queued (c : Capture) (r : CaptureRecord) : Capture :=
  if c.queue.length < 16 then { c with queue := c.queue ++ [r] } else { c with overflow := true }

/-- The search finds the first of the elements that pass. -/
theorem find?_first {n : Nat} {xs : List (Fin n)} {pass : Fin n → Bool} {f : Fin n} (hsorted : xs.Pairwise (· < ·))
    (hmem : f ∈ xs) (hf : pass f = true) (hless : ∀ g, g < f → pass g = false) : xs.find? pass = some f := by
  obtain ⟨before, behind, rfl⟩ := List.append_of_mem hmem
  refine List.find?_eq_some_iff_append.mpr ⟨hf, before, behind, rfl, fun g hg => ?_⟩
  rw [hless g ((List.pairwise_append.mp hsorted).2.2 g hg f List.mem_cons_self)]
  rfl

theorem store_unmatched (h : ∀ f : Fin 8, (c.filters[f]).matches ident = false) (now : RackTime) :
    c.store ident data now = c := by
  have hnone : firstFilter c.filters ident = none :=
    List.find?_eq_none.mpr fun f _ hf => Bool.noConfusion ((h f).symm.trans hf)
  simp only [Capture.store, hnone]

/-- A LONG frame with accept-long OFF is not stored. -/
theorem store_refusedLong (h8 : 8 < data.length) (hoff : c.acceptLong = false) (now : RackTime) :
    c.store ident data now = c := by
  unfold Capture.store
  split
  · rfl
  · rw [if_pos (by simp [h8, hoff])]

theorem store_unstored (h : (∀ f : Fin 8, (c.filters[f]).matches ident = false) ∨
    (8 < data.length ∧ c.acceptLong = false)) (now : RackTime) : c.store ident data now = c := by
  rcases h with h | ⟨h8, hoff⟩
  · exact store_unmatched h now
  · exact store_refusedLong h8 hoff now

theorem store_matched {f : Fin 8} (hf : (c.filters[f]).matches ident = true)
    (hless : ∀ g, g < f → (c.filters[g]).matches ident = false) (hlong : data.length ≤ 8 ∨ c.acceptLong = true)
    (now : RackTime) : c.store ident data now = queued c { ident := ident, data := data, time := now, filter := f } := by
  have hfirst : firstFilter c.filters ident = some f := find?_first ids8_sorted (mem_ids8 f) hf hless
  have htaken : ¬ (8 < data.length && !c.acceptLong) = true := by
    rcases hlong with h | h
    · simp [Nat.not_lt.mpr h]
    · simp [h]
  simp only [Capture.store, hfirst, if_neg htaken]
  rfl

/-! ### Examination (R141 to R143) -/

/-- The capture unit after the examination of a frame that does not decide (R142). -/
def examined (c : Capture) (e : Expectation) (data : List Byte) : Capture :=
  { c with
    matchCount := if e.counts c.afterSeen data then c.matchCount + 1 else c.matchCount,
    afterSeen := e.seenAfter c.afterSeen data }

/-- The capture unit after the examination of a frame that decides (R143). -/
def decided (c : Capture) (e : Expectation) (data : List Byte) (v : StepOutcome) : Capture :=
  { c with
    matchCount := c.matchCount + 1, expectState := .decided, verdict := some v,
    afterSeen := e.seenAfter c.afterSeen data }

theorem examine_unwatched (h : c.expectState ≠ .watching ∨
    (∃ e, c.expectation = some e ∧ identMatch e.ident e.mask ident = false)) : c.examine ident data = (c, none) := by
  unfold Capture.examine
  split
  · next hwatching =>
    rcases h with h | ⟨e, he, hident⟩
    · exact absurd hwatching h
    · simp [he, hident]
  · rfl

theorem examine_watched (hwatching : c.expectState = .watching) (he : c.expectation = some e)
    (hident : identMatch e.ident e.mask ident = true) : c.examine ident data = c.examineFor e data := by
  simp only [Capture.examine, if_pos hwatching, he, if_pos hident]

/-- A LONG frame matches no pattern (R141). -/
theorem matches_length {q : FramePattern} (h : q.matches data = true) : data.length ≤ 8 := by
  obtain ⟨hrule, -⟩ := Bool.and_eq_true_iff.mp h
  cases hq : q.rule with
  | exact n =>
    rw [hq] at hrule
    exact of_decide_eq_true (Bool.and_eq_true_iff.mp hrule).2
  | any =>
    rw [hq] at hrule
    exact of_decide_eq_true hrule

theorem counts_of_after (hmatches : e.pattern.matches data = true) (hafter : e.after = none ∨ c.afterSeen = true) :
    e.counts c.afterSeen data = true := by
  rcases hafter with h | h
  · simp [Expectation.counts, hmatches, h]
  · simp [Expectation.counts, hmatches, h]

theorem decides_below {n : Nat} (hmode : e.mode = .present) (hn : n ≠ e.required) : e.decides n = none := by
  simp only [Expectation.decides, hmode, if_neg hn]

theorem decides_verdict {n : Nat} {v : StepOutcome} (h : (e.mode = .absent ∧ v = .failPattern) ∨
    (e.mode = .present ∧ n = e.required ∧ v = .pass)) : e.decides n = some v := by
  rcases h with ⟨hmode, rfl⟩ | ⟨hmode, hn, rfl⟩
  · simp only [Expectation.decides, hmode]
  · simp only [Expectation.decides, hmode, if_pos hn]

theorem examineFor_open (h : (e.mode = .present ∧ c.matchCount + 1 ≠ e.required) ∨ e.counts c.afterSeen data = false) :
    c.examineFor e data = (examined c e data, none) := by
  cases hcounts : e.counts c.afterSeen data with
  | false => simp [Capture.examineFor, examined, hcounts]
  | true =>
    obtain ⟨hmode, hn⟩ := h.resolve_right fun hc => Bool.noConfusion (hc.symm.trans hcounts)
    simp [Capture.examineFor, examined, hcounts, decides_below hmode hn]

theorem examineFor_decided {v : StepOutcome} (hcounts : e.counts c.afterSeen data = true)
    (hv : e.decides (c.matchCount + 1) = some v) :
    c.examineFor e data = (decided c e data v, some { verdict := v, count := c.matchCount + 1 }) := by
  simp only [Capture.examineFor, if_pos hcounts, hv]
  rfl

/-! ### The report and the running step (R36, R145) -/

/-- The report of the expectation is stored in a step that goes on while another part is open. -/
theorem deliverExpect_open {r : Running} {x : ExpectReport} (hr : (s.seat k).running = some r)
    (hnone : r.expectReport = none)
    (hopen : (r.step.prompt ≠ none ∧ r.promptReport = none) ∨ (∃ j : Nat, r.measReports[j]? = some none)) :
    s.deliverExpect k x = s.setRunning k (some { r with expectReport := some x }) := by
  have hreport : r.reportExpect x = { r with expectReport := some x } := by simp only [Running.reportExpect, hnone]
  have hgoes : Running.complete { r with expectReport := some x } = false := not_complete (Or.inr hopen)
  simp only [State.deliverExpect, hr, hreport, State.afterReport, hgoes]
  rfl

/-! ### Reception (R100, R135) -/

/-- Before the end of the load a frame leaves no trace. -/
theorem exec_frameReceived_loading (h : s.isReady = false) : exec (.frameReceived k ident data) s = .next s := by
  change whenDue s s.isReady _ = _
  rw [h, whenDue_false]

theorem exec_frameReceived (h : s.isReady = true) : exec (.frameReceived k ident data) s =
    .next ((s.examineFrame k ident data).storeFrame k ident data) := by
  change whenDue s s.isReady _ = _
  rw [h, whenDue_true]

/-- A frame that gives no report is stored by the unit as its examination left it, or not at all. -/
theorem exec_frameReceived_unreported {u : Capture} (h : s.isReady = true)
    (hu : (s.capture k).examine ident data = (u, none)) :
    ((∀ f : Fin 8, (u.filters[f]).matches ident = false) ∨ (8 < data.length ∧ u.acceptLong = false) →
      exec (.frameReceived k ident data) s = .next (s.setCapture k u)) ∧
    (∀ f : Fin 8, (u.filters[f]).matches ident = true → (∀ g, g < f → (u.filters[g]).matches ident = false) →
      data.length ≤ 8 ∨ u.acceptLong = true → exec (.frameReceived k ident data) s =
        .next (s.setCapture k (queued u { ident := ident, data := data, time := s.now, filter := f }))) := by
  have hexamined : s.examineFrame k ident data = s.setCapture k u := by simp only [State.examineFrame, hu]
  have hexec : exec (.frameReceived k ident data) s = .next (s.setCapture k (u.store ident data s.now)) := by
    rw [exec_frameReceived h, hexamined, State.storeFrame, capture_setCapture_same, setCapture_setCapture]
    rfl
  exact ⟨fun hout => by rw [hexec, store_unstored hout],
    fun f hf hless hlong => by rw [hexec, store_matched hf hless hlong]⟩

/-- A frame whose report leaves the step running is stored after the report is handed on. -/
theorem exec_frameReceived_reported {u : Capture} {x : ExpectReport} {r : Running} (h : s.isReady = true)
    (hu : (s.capture k).examine ident data = (u, some x)) (hr : (s.seat k).running = some r)
    (hnone : r.expectReport = none)
    (hopen : (r.step.prompt ≠ none ∧ r.promptReport = none) ∨ (∃ j : Nat, r.measReports[j]? = some none)) :
    exec (.frameReceived k ident data) s =
      .next ((s.setCapture k (u.store ident data s.now)).setRunning k (some { r with expectReport := some x })) := by
  have hexamined : s.examineFrame k ident data =
      (s.setCapture k u).setRunning k (some { r with expectReport := some x }) := by
    simp only [State.examineFrame, hu]
    exact deliverExpect_open (by simpa using hr) hnone hopen
  rw [exec_frameReceived h, hexamined, State.storeFrame, setRunning_setCapture, setCapture_setCapture]
  simp [State.capture, State.now]

/-- Settles O53: what the examination leaves, handed on when it decides, meets the storage stage. -/
theorem frameReceivedIsStored : Obligations.FrameReceivedIsStored := by
  refine ⟨fun s k ident data => ⟨rfl, exec_frameReceived_loading⟩, fun s k ident data h => ⟨fun hunwatched => ?_,
    fun e u hwatching he hident hopen hu => ?_,
    fun e u v r hwatching he hident hmatches hafter hv hr _ hnone hparts hu => ?_⟩⟩
  · obtain ⟨hout, hin⟩ := exec_frameReceived_unreported h (examine_unwatched (data := data) hunwatched)
    rw [setCapture_self] at hout
    exact ⟨hout, hin⟩
  · obtain rfl : u = examined (s.capture k) e data := hu
    exact exec_frameReceived_unreported h ((examine_watched hwatching he hident).trans (examineFor_open hopen))
  · obtain rfl : u = decided (s.capture k) e data v := hu
    have hexec := exec_frameReceived_reported h ((examine_watched hwatching he hident).trans
      (examineFor_decided (counts_of_after hmatches hafter) (decides_verdict hv))) hr hnone hparts
    refine ⟨fun hout => ?_, fun f hf hless => ?_⟩
    · rw [hexec, store_unmatched (c := decided (s.capture k) e data v) hout]
    · rw [hexec, store_matched (c := decided (s.capture k) e data v) hf hless (Or.inl (matches_length hmatches))]
      rfl

end Steps
end Machine
end Sys2Proof
end

section
/-! One microsecond of the rack timebase (R193), and the due event or the microsecond a step with no command waiting
takes (log entries 1, 2, 9 and 19). -/

namespace Sys2Proof
namespace Machine
namespace Steps

variable {s : State} {k : Fin 4}

/-! ### The due event (log entry 2) -/

theorem chooseDue_mem {cs : List Instr} (h : cs ≠ []) : ∃ c ∈ cs, s.chooseDue cs = some c := by
  match cs with
  | [] => exact absurd rfl h
  | [x] => exact ⟨x, by simp, rfl⟩
  | x :: y :: rest =>
    have hlt : Config.freeChoice s.draws % (x :: y :: rest).length < (x :: y :: rest).length := Nat.mod_lt _ (by simp)
    exact ⟨_, List.getElem_mem hlt, List.getElem?_eq_getElem hlt⟩

theorem step_notDue (hp : s.pending = []) (h : s.dueEvents = []) : step s = .next s.advanceTime := by
  simp [step, hp, idle, h, State.chooseDue]

theorem step_due (hp : s.pending = []) (h : s.dueEvents ≠ []) :
    ∃ c ∈ s.dueEvents, step s = exec c { s with draws := s.draws + 1 } := by
  obtain ⟨c, hc, hchosen⟩ := chooseDue_mem (s := s) h
  exact ⟨c, hc, by simp [step, hp, idle, hchosen]⟩

/-! ### What a microsecond of the outputs and the lamps leaves unchanged (R88, R160)

Each record with its running cycles and lamp phases erased: a microsecond of the outputs and the lamps keeps what is
left, so its frame is one equation. -/

/-- The outputs without the cycles in progress. -/
def stillOutputs (o : Outputs) : Outputs :=
  { o with fo0 := { o.fo0 with cycle := none }, fo1 := { o.fo1 with cycle := none } }

/-- A seat without the cycles of its outputs. -/
def stillSeat (x : Seat) : Seat := { x with outputs := stillOutputs x.outputs }

/-- A lamp without its phase. -/
def stillLamp (l : Lamp) : Lamp := { l with phase := 0 }

/-- The panel without the phases of its lamps. -/
def stillPanel (x : Panel) : Panel := { x with lamps := x.lamps.map stillLamp }

/-- The state without cycles and lamp phases. -/
def still (s : State) : State := { s with seats := s.seats.map stillSeat, panel := stillPanel s.panel }

theorem still_seat (s : State) (k : Fin 4) : (still s).seat k = stillSeat (s.seat k) := by simp [still, State.seat]

theorem still_lamp (s : State) (k : Fin 4) : (still s).lamp k = stillLamp (s.lamp k) := by
  simp [still, stillPanel, State.lamp]

/-- A function that does not tell the new element from the old one does not see the update. -/
theorem map_set_same {α β : Type} {n : Nat} {f : α → β} {v : Vector α n} {j : Fin n} {x : α} (h : f x = f v[j]) :
    (v.set j x).map f = v.map f := by
  have hj : f v[j] = (v.map f)[j] := (Vector.getElem_map _ _).symm
  rw [Vector.map_set, h, hj]
  exact Vector.set_getElem_self _

theorem setOutputs_still {o : Outputs} (h : stillOutputs o = stillOutputs (s.seat k).outputs) :
    still (s.setOutputs k o) = still s := by
  have hseats : (s.seats.set k { s.seat k with outputs := o }).map stillSeat = s.seats.map stillSeat :=
    map_set_same (congrArg (fun x => { s.seat k with outputs := x }) h)
  exact congrArg (fun xs => { still s with seats := xs }) hseats

theorem setLamp_still {l : Lamp} (h : stillLamp l = stillLamp (s.lamp k)) : still (s.setLamp k l) = still s :=
  congrArg (fun ls => { still s with panel := { s.panel with lamps := ls } }) (map_set_same h)

theorem freqOut_tick_still (o : FreqOut) : { o.tick with cycle := none } = { o with cycle := none } := by
  unfold FreqOut.tick
  split
  · rfl
  · split <;> rfl

theorem tickOutputs_still (s : State) (k : Fin 4) : still (tickOutputs s k) = still s := by
  refine setOutputs_still ?_
  simp only [stillOutputs, freqOut_tick_still]

theorem tickLamp_still (s : State) (k : Fin 4) : still (tickLamp s k) = still s := by
  unfold tickLamp
  split
  · rfl
  · exact setLamp_still rfl

theorem foldl_tickSeat_still (ks : List (Fin 4)) (s : State) :
    still (ks.foldl (fun x k => tickLamp (tickOutputs x k) k) s) = still s := by
  induction ks generalizing s with
  | nil => rfl
  | cons k ks ih => rw [List.foldl_cons, ih, tickLamp_still, tickOutputs_still]

/-- Rack time is the one other thing that moves with the outputs and the lamps. -/
theorem tick_still (s : State) : still s.tick = { still s with clock := s.clock.afterUs 1 } := by
  have h := foldl_tickSeat_still seatIds s
  unfold State.tick
  generalize seatIds.foldl (fun x k => tickLamp (tickOutputs x k) k) s = t at h ⊢
  have hclock : t.clock = s.clock := (congrArg State.clock h :)
  rw [← hclock, ← h]
  rfl

/-- A microsecond is the pins and, unless the rack reset is held, a tick (R190). -/
theorem advanceTime_still (s : State) : still s.advanceTime =
    { still s.drivePins with clock := if s.loader.phase = .held then s.clock else s.clock.afterUs 1 } := by
  unfold State.advanceTime
  split
  · rfl
  · exact tick_still s.drivePins

/-! ### Each record after a microsecond -/

/-- What chip select makes of the link receiver (R175 to R177). -/
theorem chipSelect_eq (r : PortRecord) (isOpen active : Bool) : r.chipSelect isOpen active =
    { r with select := active,
             link := if active = r.select then r.link
                     else if active = true ∧ isOpen = true then .receiving else .idle } := by
  unfold PortRecord.chipSelect
  by_cases h : r.select = active
  · subst h; simp
  · simp [h, Ne.symm h, and_comm]

theorem drivePins_port (s : State) (p : Port) :
    s.drivePins.port p = (s.port p).chipSelect (s.linkOpen p) (Config.freeSelect s.draws (portCode p)) := by
  cases p <;> rfl

theorem advanceTime_clock (s : State) :
    s.advanceTime.clock = if s.loader.phase = .held then s.clock else s.clock.afterUs 1 :=
  congrArg State.clock (advanceTime_still s)

theorem advanceTime_port (s : State) (p : Port) : s.advanceTime.port p = s.drivePins.port p :=
  (congrArg (fun t => State.port t p) (advanceTime_still s) :)

theorem advanceTime_seat (s : State) (k : Fin 4) : stillSeat (s.advanceTime.seat k) = stillSeat (s.seat k) := by
  rw [← still_seat, ← still_seat, advanceTime_still]
  rfl

theorem advanceTime_outputs (s : State) (k : Fin 4) :
    stillOutputs (s.advanceTime.seat k).outputs = stillOutputs (s.seat k).outputs :=
  congrArg Seat.outputs (advanceTime_seat s k)

theorem advanceTime_panel (s : State) : stillPanel s.advanceTime.panel = stillPanel s.panel :=
  congrArg State.panel (advanceTime_still s)

theorem advanceTime_lamp (s : State) (k : Fin 4) : stillLamp (s.advanceTime.lamp k) = stillLamp (s.lamp k) := by
  rw [← still_lamp, ← still_lamp, advanceTime_still]
  rfl

theorem advanceTime_rest (s : State) :
    { s.advanceTime with clock := s.clock, draws := s.draws, inputs := s.inputs, seats := s.seats, panel := s.panel,
                         portA := s.portA, portB := s.portB } = s :=
  congrArg (fun t : State => { t with clock := s.clock, draws := s.draws, inputs := s.inputs, seats := s.seats,
                                      panel := s.panel, portA := s.portA, portB := s.portB }) (advanceTime_still s)

/-- Settles O2: a due event is chosen when there is one, and a microsecond keeps each record but for its cycles, its
lamp phases and its pins. -/
theorem emptyQueueTakesDueEventOrTime : Obligations.EmptyQueueTakesDueEventOrTime := by
  refine ⟨fun s hp => ⟨step_notDue hp, step_due hp⟩, fun s => ⟨advanceTime_clock s, fun p => ?_, fun k => ?_,
    fun k => ?_, ?_, fun k => ?_, advanceTime_rest s⟩⟩
  · exact ⟨_, (advanceTime_port s p).trans ((drivePins_port s p).trans (chipSelect_eq _ _ _))⟩
  · exact congrArg (fun x : Seat => { x with outputs := (s.seat k).outputs }) (advanceTime_seat s k)
  · have h := advanceTime_outputs s k
    exact ⟨(congrArg Outputs.ao0 h :), (congrArg Outputs.ao1 h :), (congrArg Outputs.dl h :),
      (congrArg Outputs.fo0 h :), (congrArg Outputs.fo1 h :)⟩
  · exact congrArg (fun x : Panel => { x with lamps := s.panel.lamps }) (advanceTime_panel s)
  · exact (congrArg Lamp.mode (advanceTime_lamp s k) :)

end Steps
end Machine
end Sys2Proof
end

section
/-! SET_CALIBRATION, STORE_CALIBRATION and the end of a store (R105 to R107). -/

namespace Sys2Proof
namespace Machine
namespace Steps

variable {s : State} {p : Port} {j : Fin 32} {e o0 o1 g0 g1 : Byte} {x : StoreOp} {acc : StoreAccepted}

/-! ### SET_CALIBRATION (R105) -/

theorem setCalibrationArg_inRange (hlow : -2048 ≤ (word16 o0 o1).toInt) (hhigh : (word16 o0 o1).toInt ≤ 2047) :
    setCalibrationArg [byteOf j.val, o0, o1, g0, g1] = some (j, (word16 o0 o1).toInt, word16 g0 g1) := by
  simp only [setCalibrationArg, finArg_byteOf (by decide : 32 ≤ 256)]
  exact if_pos ⟨hlow, hhigh⟩

theorem setCalibrationArg_none
    (h : 32 ≤ e.toNat ∨ (word16 o0 o1).toInt < -2048 ∨ 2047 < (word16 o0 o1).toInt) :
    setCalibrationArg [e, o0, o1, g0, g1] = none := by
  simp only [setCalibrationArg]
  rcases h with hentry | hoffset
  · rw [finArg_none hentry]
  · cases finArg 32 e with
    | none => rfl
    | some j => exact if_neg (by omega)

theorem exec_setCalibration (h : s.takes p) (hlow : -2048 ≤ (word16 o0 o1).toInt)
    (hhigh : (word16 o0 o1).toInt ≤ 2047) :
    exec (.setCalibration p [byteOf j.val, o0, o1, g0, g1]) s =
      answered (s.setCal j { offset := (word16 o0 o1).toInt, gain := word16 g0 g1, source := .set }) p .ok [] := by
  change command p s (withArg s (setCalibrationArg _) _) = _
  rw [setCalibrationArg_inRange hlow hhigh]
  exact command_taken_pair h _ _ _

theorem exec_setCalibration_badParam (h : s.takes p)
    (hbad : 32 ≤ e.toNat ∨ (word16 o0 o1).toInt < -2048 ∨ 2047 < (word16 o0 o1).toInt) :
    exec (.setCalibration p [e, o0, o1, g0, g1]) s = answered s p .badParam [] := by
  refine exec_misread rfl h ?_
  rw [operandsRead, setCalibrationArg_none hbad]
  rfl

/-! ### STORE_CALIBRATION (R106) -/

theorem exec_storeCalibration (h : s.takes p) : exec (.storeCalibration p [byteOf j.val]) s =
    if s.loader.store = none then
      answered (s.setStore (some { port := p, entry := j, offset := (s.cal j).offset, gain := (s.cal j).gain,
                                   finish := msAfter s.now 10 })) p .accepted []
    else answered s p .busy [] := by
  change command p s (withArg s (indexArg 32 _) _) = _
  rw [indexArg_byteOf (by decide : 32 ≤ 256), withArg_some]
  cases s.loader.store with
  | none => exact command_taken_pair h _ _ _
  | some x => exact command_taken_pair h _ _ _

/-! ### The end of a store (R107) -/

theorem exec_storeEnd (hx : s.loader.store = some x) (hdue : msReached s.now x.finish = true) :
    exec (.storeEnd acc) s = .next (s.endStore x acc) := by
  change execStoreEnd acc s = _
  simp only [execStoreEnd, hx, hdue, whenDue_true]

theorem endStore_eq : s.endStore x acc =
    State.setPort { s with eeprom := storedWords s.eeprom x acc, loader := { s.loader with store := none } } x.port
      ((s.port x.port).post
        { kind := .storeDone, level := 0, seat := none, stepId := none,
          code := if acc.signature && acc.offset && acc.gain then 0 else 1, count := some x.entry.val,
          time := s.now }) := by
  have hcode : BitVec.ofNat 8 (if allAccepted acc then 0 else 1) =
      if acc.signature && acc.offset && acc.gain then 0 else 1 := apply_ite _ _ _ _
  rw [← hcode]
  rfl

theorem writeIf_wf {m : Memory 16} (hm : Memory.wf m) (ok : Bool) (a : Nat) (w : Word) :
    Memory.wf (writeIf ok m a w) := by
  cases ok with
  | false => exact hm
  | true => exact Memory.wf_write hm a w

theorem read_writeIf {m : Memory 16} (hm : Memory.wf m) (ok : Bool) (a b : Nat) (w : Word) :
    Memory.read (writeIf ok m a w) b = if b = a then (if ok then w else Memory.read m b) else Memory.read m b := by
  cases ok with
  | false => simp [writeIf]
  | true => exact Memory.read_write hm a b w

/-- The three words of a store stand at three addresses, so each is read back by itself. -/
theorem read_storedWords {m : Memory 16} (hm : Memory.wf m) (a : Nat) : Memory.read (storedWords m x acc) a =
    if a = 0 then (if acc.signature then 0x5A36 else Memory.read m 0)
    else if a = 2 * x.entry.val + 1 then (if acc.offset then BitVec.ofInt 16 x.offset else Memory.read m a)
    else if a = 2 * x.entry.val + 2 then (if acc.gain then x.gain else Memory.read m a)
    else Memory.read m a := by
  have hsigned := writeIf_wf hm acc.signature 0 Config.signature
  rw [storedWords, read_writeIf (writeIf_wf hsigned _ _ _), read_writeIf hsigned, read_writeIf hm]
  by_cases hsignature : a = 0
  · subst hsignature
    simp [Config.signature]
  · by_cases hoffset : a = 2 * x.entry.val + 1
    · subst hoffset
      simp [offsetWord]
    · simp [hsignature, hoffset]

/-- Settles O47: the two commands by their parameters, and the words and the notice of a store's end. -/
theorem calibrationAndStore : Obligations.CalibrationAndStore := by
  refine ⟨fun p s h => ⟨fun j o0 o1 g0 g1 hlow hhigh => exec_setCalibration h hlow hhigh,
    fun e o0 o1 g0 g1 hbad => exec_setCalibration_badParam h hbad, fun j => exec_storeCalibration h⟩,
    fun s x acc hx hdue hwf => ⟨storedWords s.eeprom x acc, ?_, fun a => read_storedWords hwf a⟩⟩
  rw [exec_storeEnd hx hdue, endStore_eq]

end Steps
end Machine
end Sys2Proof
end

section
/-! The verdict arithmetic: calibration (R122), the filter (R123), zones (R124) and what a sample does to a slot
(R125, R127). -/

namespace Sys2Proof
namespace Machine
namespace Steps

variable {l : Limit} {m : MeasSlot} {c y : Int} {raw : BitVec 12} {cal : CalEntry}

/-! ### Calibration (R122) -/

theorem difference_bounds (raw : BitVec 12) (hlow : -2048 ≤ cal.offset) (hhigh : cal.offset ≤ 2047) :
    -2047 ≤ (raw.toNat : Int) - cal.offset ∧ (raw.toNat : Int) - cal.offset ≤ 6143 := by
  have hraw := raw.isLt
  omega

/-- A product is lowest and highest under the largest gain. -/
theorem product_bounds {d : Int} (g : Word) (hlow : -2047 ≤ d) (hhigh : d ≤ 6143) :
    -134150145 ≤ d * g.toNat ∧ d * g.toNat ≤ 402581505 := by
  have hgain : (g.toNat : Int) ≤ 65535 := by have := g.isLt; omega
  have hpos : (0 : Int) ≤ g.toNat := Int.natCast_nonneg _
  constructor
  · calc (-134150145 : Int) ≤ -2047 * g.toNat := by omega
      _ ≤ d * g.toNat := Int.mul_le_mul_of_nonneg_right hlow hpos
  · calc d * g.toNat ≤ 6143 * g.toNat := Int.mul_le_mul_of_nonneg_right hhigh hpos
      _ ≤ 402581505 := by omega

/-- Only the high end saturates: no product of an offset in range is low enough for the low end. -/
theorem calibrate_eq (hp : -134150145 ≤ ((raw.toNat : Int) - cal.offset) * cal.gain.toNat) :
    calibrate raw cal = min 32767 ((((raw.toNat : Int) - cal.offset) * cal.gain.toNat + 2048) / 4096) :=
  max_eq_right (le_min (by decide) (by omega))

/-- Settles O49: the product bounds leave the high end to saturate, and each named gain makes the product linear. -/
theorem calibrationIsExact : Obligations.CalibrationIsExact := by
  intro raw cal hlow hhigh
  have hd := difference_bounds raw hlow hhigh
  have hp := product_bounds cal.gain hd.1 hd.2
  have hraw := raw.isLt
  rw [Int.fdiv_eq_ediv_of_nonneg _ (by decide), calibrate_eq hp.1]
  refine ⟨hd, hp, rfl, by omega, fun hgain hoffset => ?_, fun hgain => ?_, fun hgain hbig => ?_,
    fun hzero hoffset hgain => ?_⟩
  · rw [show cal.gain.toNat = 4096 from congrArg BitVec.toNat hgain, hoffset]
    omega
  · simp [hgain]
  · rw [show cal.gain.toNat = 65535 from congrArg BitVec.toNat hgain]
    omega
  · simp [hzero, hoffset, hgain]

/-! ### The filter (R123) -/

theorem filterValue_some (k : Nat) (y c : Int) : filterValue k (some y) c = y + (c - y) / 2 ^ k := by
  simp [filterValue]

/-- Rounded toward minus infinity, a difference below 0 is divided to at most -1, and to no less than itself. -/
theorem ediv_two_pow_of_neg {d : Int} (k : Nat) (hd : d < 0) : d ≤ d / 2 ^ k ∧ d / 2 ^ k ≤ -1 := by
  have hpos : (1 : Int) ≤ 2 ^ k := one_le_pow₀ (by decide)
  refine ⟨(Int.le_ediv_iff_mul_le (by omega)).2 ?_, ?_⟩
  · simpa using Int.mul_le_mul_of_nonpos_left hd.le hpos
  · have := Int.ediv_neg_of_neg_of_pos hd (show (0 : Int) < 2 ^ k by omega)
    omega

theorem filterValue_below (k : Nat) (h : y ≤ c) : y ≤ filterValue k (some y) c ∧ filterValue k (some y) c ≤ c := by
  have hnonneg : 0 ≤ (c - y) / 2 ^ k := Int.ediv_nonneg (by omega) (by positivity)
  have hself : (c - y) / 2 ^ k ≤ c - y := Int.ediv_le_self _ (by omega)
  rw [filterValue_some]
  omega

theorem filterValue_above (k : Nat) (h : c < y) :
    c ≤ filterValue k (some y) c ∧ filterValue k (some y) c ≤ y - 1 := by
  have hstep := ediv_two_pow_of_neg k (show c - y < 0 by omega)
  rw [filterValue_some]
  omega

theorem filterValue_between (k : Nat) (y c : Int) :
    min y c ≤ filterValue k (some y) c ∧ filterValue k (some y) c ≤ max y c := by
  rcases le_or_gt y c with h | h
  · have := filterValue_below k h
    omega
  · have := filterValue_above k h
    omega

theorem filterValue_rests {k : Nat} (h : y ≤ c) (hnear : c - y < 2 ^ k) : filterValue k (some y) c = y := by
  rw [filterValue_some, Int.ediv_eq_zero_of_lt (by omega) hnear, add_zero]

/-! ### Zones (R124) -/

theorem zoneOf_eq_outLow : zoneOf l y = .outLow ↔ y < l.low := by
  unfold zoneOf
  split_ifs with hlow <;> simp [hlow]

theorem zoneOf_eq_outHigh (h : l.low ≤ l.high) : zoneOf l y = .outHigh ↔ l.high < y := by
  unfold zoneOf
  split_ifs with hlow hhigh
  · exact iff_of_false nofun (by omega)
  · exact iff_of_true rfl hhigh
  · exact iff_of_false nofun hhigh
  · exact iff_of_false nofun hhigh

/-- A guard is no less than 0, so the inner bounds lie within L and H. -/
theorem zoneOf_eq_inside : zoneOf l y = .inside ↔ l.low + l.guard ≤ y ∧ y ≤ l.high - l.guard := by
  unfold zoneOf
  split_ifs with hlow hhigh hin
  · exact iff_of_false nofun (by omega)
  · exact iff_of_false nofun (by omega)
  · exact iff_of_true rfl hin
  · exact iff_of_false nofun hin

theorem zoneOf_eq_marginal : zoneOf l y = .marginal ↔
    (l.low ≤ y ∧ y ≤ l.high) ∧ ¬ (l.low + l.guard ≤ y ∧ y ≤ l.high - l.guard) := by
  unfold zoneOf
  split_ifs with hlow hhigh hin
  · exact iff_of_false nofun (by omega)
  · exact iff_of_false nofun (by omega)
  · exact iff_of_false nofun fun h => h.2 hin
  · exact iff_of_true rfl ⟨by omega, hin⟩

theorem zoneOf_ne_none (l : Limit) (y : Int) : zoneOf l y ≠ .none := by
  unfold zoneOf
  split_ifs <;> nofun

/-! ### A sample on a slot (R121, R125, R127) -/

/-- The record of a SETTLE slot when a sample has been counted, before the latch is looked at (R125). -/
def countedSample (m : MeasSlot) (l : Limit) (c : Int) : MeasSlot :=
  let z := zoneOf l (filterValue l.shift m.y c)
  { m with y := some (filterValue l.shift m.y c), zone := z, run := (runAfter z m.run m.runMarginal).1,
           runMarginal := (runAfter z m.run m.runMarginal).2 }

theorem takeSample_settle (h : l.mode = .settle) (c : Int) : m.takeSample l c =
    if (countedSample m l c).run = l.settle then (countedSample m l c).latch else countedSample m l c := by
  simp only [MeasSlot.takeSample, h]
  rfl

theorem takeSample_peak (h : l.mode ≠ .settle) (c : Int) : m.takeSample l c =
    { m with y := some (filterValue l.shift m.y c), zone := zoneOf l (filterValue l.shift m.y c),
             extreme := extremeAfter l.mode m.extreme (filterValue l.shift m.y c) } := by
  cases hmode : l.mode with
  | settle => exact absurd hmode h
  | peakMax | peakMin => simp only [MeasSlot.takeSample, hmode]

theorem takeSample_filtered (m : MeasSlot) (l : Limit) (c : Int) :
    (m.takeSample l c).y = some (filterValue l.shift m.y c) ∧
    (m.takeSample l c).zone = zoneOf l (filterValue l.shift m.y c) := by
  by_cases h : l.mode = .settle
  · rw [takeSample_settle h]
    split <;> exact ⟨rfl, rfl⟩
  · rw [takeSample_peak h]
    exact ⟨rfl, rfl⟩

theorem extremeAfter_peakMax (old : Option Int) (y : Int) :
    extremeAfter .peakMax old y = some (max y (old.getD y)) := by
  cases old with
  | none => simp [extremeAfter]
  | some x => simp [extremeAfter, max_comm]

theorem extremeAfter_peakMin (old : Option Int) (y : Int) :
    extremeAfter .peakMin old y = some (min y (old.getD y)) := by
  cases old with
  | none => simp [extremeAfter]
  | some x => simp [extremeAfter, min_comm]

theorem takeSample_extreme (h : l.mode ≠ .settle) (c : Int) :
    (m.takeSample l c).extreme = extremeAfter l.mode m.extreme (filterValue l.shift m.y c) := by
  rw [takeSample_peak h]

theorem takeSample_counts (h : l.mode = .settle) (c : Int) :
    (m.takeSample l c).run = (countedSample m l c).run ∧
    (m.takeSample l c).runMarginal = (countedSample m l c).runMarginal ∧
    (m.takeSample l c).extreme = m.extreme := by
  rw [takeSample_settle h]
  split <;> exact ⟨rfl, rfl, rfl⟩

theorem takeSample_latches (h : l.mode = .settle) (hrun : (m.takeSample l c).run = l.settle) :
    (m.takeSample l c).state = .latched ∧ (m.takeSample l c).due = false ∧ (m.takeSample l c).nextDue = none := by
  rw [(takeSample_counts h c).1] at hrun
  rw [takeSample_settle h, if_pos hrun]
  exact ⟨rfl, rfl, rfl⟩

theorem takeSample_goesOn (h : l.mode = .settle) (hrun : (m.takeSample l c).run ≠ l.settle) :
    (m.takeSample l c).state = m.state := by
  rw [(takeSample_counts h c).1] at hrun
  rw [takeSample_settle h, if_neg hrun]
  rfl

/-- Settles O50: the filter by the sign of the difference, the sample by the mode, the zones by their conditions. -/
theorem filterAndZones : Obligations.FilterAndZones := by
  refine ⟨⟨fun k c y => ⟨rfl, ?_, (filterValue_between k y c).1, (filterValue_between k y c).2, ?_,
    filterValue_rests, fun h => (filterValue_above k h).2⟩, fun n flag => ⟨rfl, rfl, rfl, rfl⟩, fun m l c => ?_⟩,
    fun l y hband => ?_⟩
  · rw [filterValue_some, Int.fdiv_eq_ediv_of_nonneg _ (by positivity)]
  · rw [filterValue_some, pow_zero, Int.ediv_one, add_sub_cancel]
  · obtain ⟨hy, hzone⟩ := takeSample_filtered m l c
    refine ⟨hy, hzone, fun h => ?_, fun h => ?_, fun h => ?_, fun h => ?_⟩
    · rw [takeSample_extreme (by simp [h]), h, extremeAfter_peakMax]
    · rw [takeSample_extreme (by simp [h]), h, extremeAfter_peakMin]
    · obtain ⟨hrun, hflag, hextreme⟩ := takeSample_counts (m := m) h c
      exact ⟨hrun, hflag, hextreme, takeSample_latches h, takeSample_goesOn h⟩
    · rw [takeSample_peak h]
      exact ⟨rfl, rfl, rfl⟩
  · refine ⟨zoneOf_eq_outLow, zoneOf_eq_outHigh hband, zoneOf_eq_inside, zoneOf_eq_marginal, zoneOf_ne_none l y,
      fun hguard => ?_, fun hwide => ?_, fun hlow hhigh hmin hmax => ⟨?_, ?_⟩, fun m c => (takeSample_filtered m l c).2⟩
    · rw [Ne, zoneOf_eq_marginal]
      omega
    · rw [Ne, zoneOf_eq_inside]
      omega
    · rw [Ne, zoneOf_eq_outLow]
      omega
    · rw [Ne, zoneOf_eq_outHigh hband]
      omega

end Steps
end Machine
end Sys2Proof
end

section
/-! The commands of the capture units and their records (R133, R134, R136 to R138, R182). -/

namespace Sys2Proof
namespace Machine
namespace Steps

variable {s : State} {p : Port} {k : Fin 4}

/-! ### SET_FILTER (R133) -/

theorem identArg_inside {lo hi : Byte} (h : (word16 lo hi).toNat < 2048) :
    identArg lo hi = some ((word16 lo hi).setWidth 11) := if_pos h

theorem identArg_outside {lo hi : Byte} (h : ¬ (word16 lo hi).toNat < 2048) : identArg lo hi = none := if_neg h

/-- The filter record that operand bytes in range carry. -/
def filterOf (en : Bool) (i0 i1 m0 m1 : Byte) : Filter where
  enable := en
  ident := (word16 i0 i1).setWidth 11
  mask := (word16 m0 m1).setWidth 11

theorem setFilterArg_eq (k : Fin 4) (f : Fin 8) (en : Bool) (i0 i1 m0 m1 : Byte) :
    setFilterArg [byteOf k.val, byteOf f.val, if en then 1 else 0, i0, i1, m0, m1] =
      if (word16 i0 i1).toNat < 2048 ∧ (word16 m0 m1).toNat < 2048 then some (k, f, filterOf en i0 i1 m0 m1)
      else none := by
  simp only [setFilterArg, finArg_byteOf (by decide : 4 ≤ 256), finArg_byteOf (by decide : 8 ≤ 256), flagArg_ite]
  by_cases hident : (word16 i0 i1).toNat < 2048
  · by_cases hmask : (word16 m0 m1).toNat < 2048
    · rw [identArg_inside hident, identArg_inside hmask, if_pos ⟨hident, hmask⟩]
      rfl
    · rw [identArg_inside hident, identArg_outside hmask, if_neg fun h => hmask h.2]
  · rw [identArg_outside hident, if_neg fun h => hident h.1]

theorem exec_setFilter (h : s.takes p) (ho : (s.record k).owner = some p) (f : Fin 8) (en : Bool)
    (i0 i1 m0 m1 : Byte) :
    exec (.setFilter p [byteOf k.val, byteOf f.val, if en then 1 else 0, i0, i1, m0, m1]) s =
      if (word16 i0 i1).toNat < 2048 ∧ (word16 m0 m1).toNat < 2048 then
        answered (s.setCapture k
          { s.capture k with filters := (s.capture k).filters.set f (filterOf en i0 i1 m0 m1) }) p .ok []
      else answered s p .badParam [] := by
  change command p s (withArg s (setFilterArg _) _) = _
  rw [setFilterArg_eq]
  split
  · rw [withArg_some, ifOwner_owner ho]
    exact command_taken_pair h _ _ _
  · exact command_taken_pair h _ _ _

/-! ### SET_ACCEPT_LONG (R134) -/

theorem setAcceptLongArg_eq (k : Fin 4) (v : Byte) :
    setAcceptLongArg [byteOf k.val, v] = (acceptLongArg v).map fun on => (k, on) := by
  simp only [setAcceptLongArg, finArg_byteOf (by decide : 4 ≤ 256)]
  cases acceptLongArg v <;> rfl

theorem exec_setAcceptLong {v : Byte} {on : Bool} (h : s.takes p) (ho : (s.record k).owner = some p)
    (hv : acceptLongArg v = some on) : exec (.setAcceptLong p [byteOf k.val, v]) s =
      answered (s.setCapture k { s.capture k with acceptLong := on }) p .ok [] := by
  change command p s (withArg s (setAcceptLongArg _) _) = _
  rw [setAcceptLongArg_eq, hv, Option.map_some, withArg_some, ifOwner_owner ho]
  exact command_taken_pair h _ _ _

theorem exec_setAcceptLong_badParam {v : Byte} (h : s.takes p) (hv : acceptLongArg v = none) :
    exec (.setAcceptLong p [byteOf k.val, v]) s = answered s p .badParam [] := by
  refine exec_misread rfl h ?_
  rw [operandsRead, setAcceptLongArg_eq, hv]
  rfl

/-- The setting byte is 0 for ON and 1 for OFF (R132, R180). -/
theorem acceptLongArg_eq (v : Byte) :
    acceptLongArg v = if v = 0 then some true else if v = 1 then some false else none := rfl

/-! ### READ_CAPTURE, CAPTURE_STATUS and FLUSH_CAPTURE (R136 to R138) -/

theorem exec_readCapture (h : s.takes p) : exec (.readCapture p [byteOf k.val]) s =
    answered (s.setCapture k { s.capture k with queue := (s.capture k).queue.tail }) p .ok
      (s.capture k).oldestBytes := by
  change command p s (withArg s (indexArg 4 _) _) = _
  rw [indexArg_byteOf (by decide : 4 ≤ 256), withArg_some]
  exact command_taken_pair h _ _ _

/-- Reading an empty queue leaves the capture unit as it is. -/
theorem exec_readCapture_empty (h : s.takes p) (hempty : (s.capture k).queue = []) :
    exec (.readCapture p [byteOf k.val]) s = answered s p .ok ([0, 0] ++ zeros 9) := by
  have hkept : { s.capture k with queue := (s.capture k).queue.tail } = s.capture k := by
    rw [hempty, List.tail_nil, ← hempty]
  rw [exec_readCapture h, hkept, setCapture_self, Capture.oldestBytes, hempty]
  rfl

theorem exec_readCapture_oldest {r : CaptureRecord} {rest : List CaptureRecord} (h : s.takes p)
    (hqueue : (s.capture k).queue = r :: rest) : exec (.readCapture p [byteOf k.val]) s =
      answered (s.setCapture k { s.capture k with queue := rest }) p .ok
        ([1, byteOf rest.length] ++ eCapture r) := by
  rw [exec_readCapture h, Capture.oldestBytes, hqueue]
  rfl

theorem exec_captureStatus (h : s.takes p) : exec (.captureStatus p [byteOf k.val]) s =
    answered (s.setCapture k { s.capture k with overflow := false }) p .ok (s.capture k).statusBytes := by
  change command p s (withArg s (indexArg 4 _) _) = _
  rw [indexArg_byteOf (by decide : 4 ≤ 256), withArg_some]
  exact command_taken_pair h _ _ _

theorem exec_flushCapture (h : s.takes p) (ho : (s.record k).owner = some p) :
    exec (.flushCapture p [byteOf k.val]) s =
      answered (s.setCapture k { s.capture k with queue := [] }) p .ok [byteOf (s.capture k).queue.length] := by
  change command p s (withArg s (indexArg 4 _) _) = _
  rw [indexArg_byteOf (by decide : 4 ≤ 256), withArg_some, ifOwner_owner ho]
  exact command_taken_pair h _ _ _

/-! ### The records (R137, R182) -/

theorem e32_eq (n : Nat) : e32 n = bytes32 n := rfl

theorem eOpt_one_eq {α : Type} (code : α → Nat) (o : Option α) :
    eOpt 1 (fun x => e8 (code x)) o = optional1 (o.map code) := by
  cases o <;> rfl

theorem eCapture_eq (r : CaptureRecord) : eCapture r =
    bytes16 r.ident.toNat ++ [byteOf r.data.length, if 8 < r.data.length then 1 else 0] ++ bytes32 r.time.toNat ++
      [byteOf r.filter.val] ++ r.data := by
  simp [eCapture, e8_eq, e16_eq, e32_eq, eFlag_eq]

theorem eFilter_eq (f : Filter) :
    eFilter f = [if f.enable then 1 else 0] ++ bytes16 f.ident.toNat ++ bytes16 f.mask.toNat := by
  rw [eFilter, eFlag_eq, e16_eq, e16_eq]

theorem e8_acceptLongCode (on : Bool) : e8 (acceptLongCode on) = [if on then 0 else 1] := by cases on <;> rfl

theorem e8_expectStateCode (x : ExpectState) : e8 x.code = [match x with
    | .inactive => 0
    | .watching => 1
    | .decided => 2] := by cases x <;> rfl

theorem statusBytes_eq (c : Capture) : c.statusBytes =
    [byteOf c.queue.length, if c.overflow then 1 else 0, if c.acceptLong then 0 else 1] ++
      c.filters.toList.flatMap (fun f =>
        [if f.enable then (1 : Byte) else 0] ++ bytes16 f.ident.toNat ++ bytes16 f.mask.toNat) ++
      [match c.expectState with
       | .inactive => 0
       | .watching => 1
       | .decided => 2,
       byteOf c.matchCount, if c.afterSeen then 1 else 0] ++
      optional1 (c.verdict.map StepOutcome.rank) := by
  rw [Capture.statusBytes, e8_acceptLongCode, e8_expectStateCode, eOpt_one_eq, eFlag_eq, eFlag_eq, e8_eq, e8_eq,
    funext eFilter_eq]
  simp only [List.append_assoc, List.cons_append, List.nil_append]

/-- Settles O51: each command by its operands, each record by its fields. -/
theorem captureCommands : Obligations.CaptureCommands := by
  refine ⟨fun p k s h => ⟨fun ho => ⟨fun f en i0 i1 m0 m1 => exec_setFilter h ho f en i0 i1 m0 m1, fun v => ?_,
    exec_flushCapture h ho⟩, exec_readCapture_empty h, fun r rest => exec_readCapture_oldest h,
    exec_captureStatus h⟩, eCapture_eq, fun c => ?_⟩
  · have hv := acceptLongArg_eq v
    split_ifs at hv ⊢
    · exact exec_setAcceptLong h ho hv
    · exact exec_setAcceptLong h ho hv
    · exact exec_setAcceptLong_badParam h hv
  · exact statusBytes_eq c

end Steps
end Machine
end Sys2Proof
end

section
/-! When a frame matches a pattern, and what its examination leaves (R141 to R143). -/

namespace Sys2Proof
namespace Machine
namespace Steps

variable {c : Capture} {e : Expectation} {q : FramePattern} {ident : BitVec 11} {data : List Byte}

/-! ### Masked comparison (R141) -/

/-- Two words that differ nowhere under a mask agree in every bit where the mask has a 1. -/
theorem xor_and_eq_zero_iff {n : Nat} (x y m : BitVec n) :
    (x ^^^ y) &&& m = 0 ↔ ∀ i, m.getLsbD i = true → x.getLsbD i = y.getLsbD i := by
  have hbit (i : Nat) : ((x ^^^ y) &&& m).getLsbD i = ((x.getLsbD i ^^ y.getLsbD i) && m.getLsbD i) := by
    rw [BitVec.getLsbD_and, BitVec.getLsbD_xor]
  constructor
  · intro h i hi
    have hzero : ((x.getLsbD i ^^ y.getLsbD i) && m.getLsbD i) = false := by
      rw [← hbit, h]
      exact BitVec.getLsbD_zero
    simpa [hi] using hzero
  · intro h
    refine BitVec.eq_of_getLsbD_eq fun i _ => (hbit i).trans ?_
    cases hi : m.getLsbD i with
    | false => simp
    | true => simp [h i hi]

theorem identMatch_iff (ident mask frame : BitVec 11) :
    identMatch ident mask frame = true ↔ ∀ i, mask.getLsbD i = true → ident.getLsbD i = frame.getLsbD i :=
  beq_iff_eq.trans (xor_and_eq_zero_iff ident frame mask)

theorem lengthRule_ok_iff (r : LengthRule) (n : Nat) : r.ok n = true ↔
    (match r with
     | .exact m => n = m ∧ n ≤ 8
     | .any => n ≤ 8) := by
  cases r <;> simp [LengthRule.ok]

/-- A position that is compared lies in the frame. -/
theorem positionOk_iff (q : FramePattern) (data : List Byte) (j : Fin 8) : positionOk q data j = true ↔
    (q.care[j] ≠ 0 → ∃ b, data[j.val]? = some b ∧
      ∀ i, (q.care[j]).getLsbD i = true → b.getLsbD i = (q.bytes[j]).getLsbD i) := by
  unfold positionOk
  rw [Bool.or_eq_true, beq_iff_eq, or_iff_not_imp_left]
  refine imp_congr_right fun _ => ?_
  cases data[j.val]? with
  | none => simp
  | some b => simp only [beq_iff_eq, xor_and_eq_zero_iff, Option.some.injEq, exists_eq_left']

theorem matches_iff (q : FramePattern) (data : List Byte) : q.matches data = true ↔
    (match q.rule with
     | .exact n => data.length = n ∧ data.length ≤ 8
     | .any => data.length ≤ 8) ∧
    ∀ j : Fin 8, q.care[j] ≠ 0 → ∃ b, data[j.val]? = some b ∧
      ∀ i, (q.care[j]).getLsbD i = true → b.getLsbD i = (q.bytes[j]).getLsbD i := by
  rw [FramePattern.matches, Bool.and_eq_true, lengthRule_ok_iff, List.all_eq_true]
  exact and_congr_right fun _ =>
    ⟨fun h j => (positionOk_iff q data j).mp (h j (mem_ids8 j)), fun h j _ => (positionOk_iff q data j).mpr (h j)⟩

/-! ### LONG frames (R141, R142) -/

theorem matches_long (h : 8 < data.length) : q.matches data = false :=
  Bool.eq_false_iff.mpr fun hmatches => Nat.not_lt.mpr (matches_length hmatches) h

theorem counts_long (h : 8 < data.length) (seen : Bool) : e.counts seen data = false := by
  rw [Expectation.counts, matches_long h, Bool.false_and]

theorem examineFor_long (h : 8 < data.length) : c.examineFor e data = (examined c e data, none) :=
  examineFor_open (Or.inr (counts_long h _))

/-- A LONG frame does not count and decides nothing, examined or not. -/
theorem examine_long_uncounted (h : 8 < data.length) :
    (c.examine ident data).1.matchCount = c.matchCount ∧ (c.examine ident data).2 = none := by
  unfold Capture.examine
  split
  · split
    · exact ⟨rfl, rfl⟩
    · split
      · rw [examineFor_long h]
        exact ⟨if_neg (by simp [counts_long h]), rfl⟩
      · exact ⟨rfl, rfl⟩
  · exact ⟨rfl, rfl⟩

theorem seenAfter_some (hafter : e.after = some q) (seen : Bool) : e.seenAfter seen data = q.matches data := by
  simp only [Expectation.seenAfter, hafter]

/-! ### Counted frames (R142, R143) -/

/-- A counted frame raises the match count, and the after-seen flag tells of it alone. -/
theorem examineFor_counted (hcounts : e.counts c.afterSeen data = true) :
    (c.examineFor e data).1.matchCount = c.matchCount + 1 ∧
    (c.examineFor e data).1.afterSeen = e.seenAfter c.afterSeen data := by
  cases hv : e.decides (c.matchCount + 1) with
  | none => simp [Capture.examineFor, hcounts, hv]
  | some v => simp [examineFor_decided hcounts hv, decided]

/-- Settles O52: the comparisons bit by bit, a LONG frame, and a counted frame by the mode. -/
theorem frameMatchesPattern : Obligations.FrameMatchesPattern := by
  refine ⟨identMatch_iff, matches_iff, fun c e ident data he hident => examine_unwatched (Or.inr ⟨e, he, hident⟩),
    fun c ident data hlong => examine_long_uncounted hlong,
    fun c e ident data hwatching he hident hmatches hafter => ?_,
    fun c e q ident data hwatching he hident hafter hlong => ?_⟩
  · have hcounts := counts_of_after hmatches hafter
    obtain ⟨hcount, hseen⟩ := examineFor_counted hcounts
    rw [examine_watched hwatching he hident]
    refine ⟨hcount, fun q hq => hseen.trans (seenAfter_some hq _), fun hmode => ?_, fun hmode hn => ?_,
      fun hmode hn => ?_⟩
    · rw [examineFor_decided hcounts (decides_verdict (Or.inl ⟨hmode, rfl⟩))]
      exact ⟨rfl, rfl⟩
    · rw [examineFor_decided hcounts (decides_verdict (Or.inr ⟨hmode, hn, rfl⟩)), hn]
      exact ⟨rfl, rfl⟩
    · rw [examineFor_open (Or.inl ⟨hmode, hn⟩)]
      exact ⟨hwatching, rfl⟩
  · rw [examine_watched hwatching he hident, examineFor_long hlong]
    exact (seenAfter_some hafter _).trans (matches_long hlong)

end Steps
end Machine
end Sys2Proof
end

section
/-! The cursors and the lamps of the panel (R149, R153, R160, R161). -/

namespace Sys2Proof
namespace Machine
namespace Steps

variable {s : State} {p : Port} {k : Fin 4}

/-! ### SET_CURSOR, RMW_BEGIN and RMW_END (R149, R153) -/

/-- A command under one further condition, which answers OK where it is met and a refusal where it is not. -/
theorem command_require (h : s.takes p) (cond : Bool) (st : Status) (t : State) :
    command p s (require s cond st (done t)) = if cond = true then answered t p .ok [] else answered s p st [] := by
  cases cond <;> exact command_taken_pair h _ _ _

theorem exec_setCursor (h : s.takes p) (g : Fin 8) (c : Fin 128) : exec (.setCursor p [byteOf g.val, byteOf c.val]) s =
    if (s.cursor p).rmw then answered s p .wrongState []
    else answered (s.setCursor p { s.cursor p with page := g, column := c }) p .ok [] := by
  change command p s (withArg s (indexPairArg 8 128 _) _) = _
  rw [indexPairArg_byteOf (by decide) (by decide), withArg_some, command_require h]
  cases (s.cursor p).rmw <;> rfl

theorem exec_setCursor_badParam (h : s.takes p) {x y : Byte} (hxy : 8 ≤ x.toNat ∨ 128 ≤ y.toNat) :
    exec (.setCursor p [x, y]) s = answered s p .badParam [] := by
  refine exec_misread rfl h ?_
  simp only [operandsRead, indexPairArg]
  rcases hxy with hx | hy
  · rw [finArg_none hx]
    rfl
  · rw [finArg_none hy]
    cases finArg 8 x <;> rfl

theorem exec_rmwBegin (h : s.takes p) : exec (.rmwBegin p []) s =
    if (s.cursor p).rmw then answered s p .wrongState []
    else answered (s.setCursor p { s.cursor p with saved := (s.cursor p).column, rmw := true }) p .ok [] := by
  change command p s (require s (!(s.cursor p).rmw) .wrongState (done _)) = _
  rw [command_require h]
  cases (s.cursor p).rmw <;> rfl

theorem exec_rmwEnd (h : s.takes p) : exec (.rmwEnd p []) s =
    if (s.cursor p).rmw then
      answered (s.setCursor p { s.cursor p with column := (s.cursor p).saved, rmw := false }) p .ok []
    else answered s p .wrongState [] := by
  change command p s (require s (s.cursor p).rmw .wrongState (done _)) = _
  exact command_require h _ _ _

/-! ### SET_LAMP (R160, R161) -/

theorem lampArg_code (m : LampMode) : lampArg (byteOf m.code) = some m := by cases m <;> rfl

theorem lampArg_none {b : Byte} (h : 4 ≤ b.toNat) : lampArg b = none := by
  unfold lampArg
  split
  case h_5 => rfl
  all_goals omega

@[simp] theorem setLamp_setLamp (s : State) (k : Fin 4) (x y : Lamp) : (s.setLamp k x).setLamp k y = s.setLamp k y := by
  simp [State.setLamp]

/-- A new set mode changes the effective mode unless FAULT or an open prompt overrides it (R160). -/
theorem effectiveLamp_setLamp (m : LampMode) (n : Nat) :
    (s.setLamp k { mode := m, phase := n }).effectiveLamp k = s.effectiveLamp k ↔
      (s.record k).state = .fault ∨ (s.prompt k).isOpen = true ∨ (s.lamp k).mode = m := by
  unfold State.effectiveLamp
  simp only [setLamp_keeps, lamp_setLamp_same]
  by_cases hfault : (s.record k).state = .fault
  · simp [hfault]
  · by_cases hopen : (s.prompt k).isOpen = true
    · simp [hopen]
    · simp [hfault, hopen, eq_comm]

/-- The set mode is taken in any case; its phase goes on exactly while the effective mode stays (R160). -/
theorem setLampMode_eq (m : LampMode) : s.setLampMode k m = s.setLamp k { mode := m, phase :=
    if (s.record k).state = .fault ∨ (s.prompt k).isOpen = true ∨ (s.lamp k).mode = m then (s.lamp k).phase
    else 0 } := by
  unfold State.setLampMode State.relamp
  by_cases h : (s.record k).state = .fault ∨ (s.prompt k).isOpen = true ∨ (s.lamp k).mode = m
  · rw [if_pos ((effectiveLamp_setLamp m _).mpr h), if_pos h]
  · rw [if_neg fun he => h ((effectiveLamp_setLamp m _).mp he), if_neg h]
    simp [State.restartLamp]

theorem exec_setLamp (h : s.takes p) (ho : (s.record k).owner = some p) (m : LampMode) :
    exec (.setLamp p [byteOf k.val, byteOf m.code]) s = answered (s.setLampMode k m) p .ok [] := by
  change command p s (withArg s (setLampArg _) _) = _
  simp only [setLampArg, finArg_byteOf (by decide : 4 ≤ 256), lampArg_code, withArg_some, ifOwner_owner ho]
  exact command_taken_pair h _ _ _

theorem exec_setLamp_badParam (h : s.takes p) {b : Byte} (hb : 4 ≤ b.toNat) :
    exec (.setLamp p [byteOf k.val, b]) s = answered s p .badParam [] := by
  refine exec_misread rfl h ?_
  simp only [operandsRead, setLampArg, finArg_byteOf (by decide : 4 ≤ 256), lampArg_none hb]
  rfl

/-- Settles O54: the commands of the cursor by their condition, SET_LAMP by what overrides the set mode. -/
theorem cursorAndLampCommands : Obligations.CursorAndLampCommands := by
  refine ⟨fun p s h =>
      ⟨exec_setCursor h, fun x y hxy => exec_setCursor_badParam h hxy, exec_rmwBegin h, exec_rmwEnd h⟩,
    fun p k s h ho => ⟨fun b hb => exec_setLamp_badParam h hb, fun m => ?_⟩⟩
  rw [exec_setLamp h ho, setLampMode_eq]

end Steps
end Machine
end Sys2Proof
end

section
/-! Transfers to and from the display RAM, and what the panel lights of it (R147, R150 to R152, R162). -/

namespace Sys2Proof
namespace Machine
namespace Steps

variable {s : State} {p : Port}

/-! ### The column (R150, R152) -/

theorem nextColumn_val (c : Fin 128) : (nextColumn c).val = min 127 (c.val + 1) := by
  unfold nextColumn
  split
  · next h =>
    have : c.val + 1 ≤ 127 := by omega
    exact (min_eq_right this).symm
  · omega

/-! ### Bytes written on a page (R150, R151) -/

theorem writeBytes_column (g : Fin 8) (x : Memory 8 × Fin 128) (bs : List Byte) :
    (writeBytes g x bs).2.val = min 127 (x.2.val + bs.length) := by
  induction bs generalizing x with
  | nil => simp only [writeBytes, List.length_nil]; omega
  | cons b bs ih =>
    simp only [writeBytes, ih, nextColumn_val, List.length_cons]
    omega

/-- A write reaches only the columns from the cursor's on, on the cursor's page. -/
theorem writeBytes_outside (g : Fin 8) {x : Memory 8 × Fin 128} (bs : List Byte) (hx : Memory.wf x.1) {a : Nat}
    (ha : a < 128 * g.val + x.2.val ∨ 128 * g.val + min 128 (x.2.val + bs.length) ≤ a) :
    Memory.read (writeBytes g x bs).1 a = Memory.read x.1 a := by
  induction bs generalizing x with
  | nil => rfl
  | cons b bs ih =>
    have hnext := nextColumn_val x.2
    simp only [List.length_cons] at ha
    rw [writeBytes, ih (Memory.wf_write hx _ _) (by dsimp only; omega), Memory.read_write hx, ramAddr,
      if_neg (by omega)]

/-- Short of the last column each byte has a column of its own. -/
theorem writeBytes_inside (g : Fin 8) {x : Memory 8 × Fin 128} (bs : List Byte) (hx : Memory.wf x.1) {i : Nat}
    (hi : i < bs.length) (hc : x.2.val + i < 127) :
    Memory.read (writeBytes g x bs).1 (128 * g.val + (x.2.val + i)) = bs.getD i 0 := by
  induction bs generalizing x i with
  | nil => exact absurd hi (Nat.not_lt_zero i)
  | cons b bs ih =>
    have hnext := nextColumn_val x.2
    have hwf := Memory.wf_write hx (ramAddr g.val x.2.val) b
    rw [writeBytes]
    cases i with
    | zero =>
      rw [writeBytes_outside g bs hwf (by dsimp only; omega), Memory.read_write hx]
      exact if_pos rfl
    | succ i =>
      have hcolumn : x.2.val + (i + 1) = (nextColumn x.2).val + i := by omega
      rw [hcolumn]
      exact ih hwf (Nat.lt_of_succ_lt_succ hi) (by dsimp only; omega)

/-- A write that reaches the last column leaves its last byte there (R151). -/
theorem writeBytes_last (g : Fin 8) {x : Memory 8 × Fin 128} (bs : List Byte) (hx : Memory.wf x.1)
    (hbs : 127 < x.2.val + bs.length) :
    Memory.read (writeBytes g x bs).1 (128 * g.val + 127) = bs.getD (bs.length - 1) 0 := by
  induction bs generalizing x with
  | nil => simp only [List.length_nil] at hbs; omega
  | cons b bs ih =>
    have hnext := nextColumn_val x.2
    have hwf := Memory.wf_write hx (ramAddr g.val x.2.val) b
    simp only [List.length_cons] at hbs
    rw [writeBytes]
    cases bs with
    | nil =>
      have hcolumn : x.2.val = 127 := by simp only [List.length_nil] at hbs; omega
      rw [writeBytes, Memory.read_write hx, ramAddr, hcolumn, if_pos rfl]
      rfl
    | cons b' bs => exact ih hwf (by simp only [List.length_cons] at hbs ⊢; omega)

/-! ### WRITE_PANEL (R150) -/

theorem writePanelArg_of_length {bs : List Byte} (h1 : 1 ≤ bs.length) (h128 : bs.length ≤ 128) :
    writePanelArg (byteOf bs.length :: bs) = some bs := by
  simp only [writePanelArg, byteOf_toNat (show bs.length < 256 by omega)]
  exact if_pos ⟨h1, h128, trivial⟩

theorem exec_writePanel_badParam (h : s.takes p) {n : Byte} {bs : List Byte}
    (hn : n.toNat = 0 ∨ 128 < n.toNat ∨ bs.length ≠ n.toNat) :
    exec (.writePanel p (n :: bs)) s = answered s p .badParam [] := by
  refine exec_misread rfl h ?_
  rw [operandsRead, writePanelArg, if_neg (by omega)]
  rfl

/-- The seat of the cursor's pane decides who may write (R150). -/
theorem exec_writePanel (h : s.takes p) {bs : List Byte} (h1 : 1 ≤ bs.length) (h128 : bs.length ≤ 128) {k : Fin 4}
    (hk : k.val = (s.cursor p).page.val / 2) : exec (.writePanel p (byteOf bs.length :: bs)) s =
      if (s.record k).owner = some (otherPort p) then answered s p .notOwner []
      else if (s.prompt k).isOpen then answered s p .paneHeld []
      else answered (s.writePanel p bs) p .ok [] := by
  obtain rfl : k = paneSeat (s.cursor p).page := Fin.ext hk
  change command p s (withArg s (writePanelArg _) _) = _
  rw [writePanelArg_of_length h1 h128, withArg_some]
  by_cases howner : (s.record (paneSeat (s.cursor p).page)).owner = some (otherPort p)
  · rw [if_pos howner, bne_eq_false_iff_eq.mpr howner]
    exact command_taken_pair h _ _ _
  · rw [if_neg howner, bne_iff_ne.mpr howner, require_true]
    cases (s.prompt (paneSeat (s.cursor p).page)).isOpen <;> exact command_taken_pair h _ _ _

/-! ### READ_PANEL (R152) -/

/-- The column the `i`-th byte of a read is loaded from: it moves on outside RMW, up to 127 (R152). -/
def readColumn (c : Cursor) (i : Nat) : Nat :=
  if c.rmw then c.column.val else min 127 (c.column.val + i)

theorem readColumn_zero (c : Cursor) : readColumn c 0 = c.column.val := by
  unfold readColumn
  split
  · rfl
  · omega

theorem readColumn_read (c : Cursor) (ram : Memory 8) (i : Nat) : readColumn (c.read ram) i = readColumn c (i + 1) := by
  unfold readColumn Cursor.read
  cases c.rmw with
  | false =>
    simp only [Bool.false_eq_true, if_false, nextColumn_val]
    omega
  | true => rfl

theorem readBytes_length (ram : Memory 8) (c : Cursor) (n : Nat) : (Cursor.readBytes ram c n).1.length = n := by
  induction n generalizing c with
  | zero => rfl
  | succ n ih => rw [Cursor.readBytes, List.length_cons, ih]

/-- A read writes the latch and the column of its cursor, and no other field. -/
theorem readBytes_eq (ram : Memory 8) (c : Cursor) (n : Nat) : (Cursor.readBytes ram c n).2 =
    { c with latch := (Cursor.readBytes ram c n).2.latch, column := (Cursor.readBytes ram c n).2.column } := by
  induction n generalizing c with
  | zero => rfl
  | succ n ih =>
    rw [Cursor.readBytes]
    dsimp only
    rw [ih]
    rfl

theorem readBytes_column (ram : Memory 8) (c : Cursor) (n : Nat) :
    (Cursor.readBytes ram c n).2.column.val = readColumn c n := by
  induction n generalizing c with
  | zero => exact (readColumn_zero c).symm
  | succ n ih => rw [Cursor.readBytes, ih, readColumn_read]

/-- The latch leaves first, and each byte loaded leaves next or stays in the latch (R152). -/
theorem readBytes_head (ram : Memory 8) (c : Cursor) (n : Nat) :
    ((Cursor.readBytes ram c n).1 ++ [(Cursor.readBytes ram c n).2.latch]).getD 0 0 = c.latch := by
  cases n <;> rfl

theorem readBytes_loaded (ram : Memory 8) (c : Cursor) {n i : Nat} (hi : i < n) :
    ((Cursor.readBytes ram c n).1 ++ [(Cursor.readBytes ram c n).2.latch]).getD (i + 1) 0 =
      Memory.read ram (128 * c.page.val + readColumn c i) := by
  induction n generalizing c i with
  | zero => exact absurd hi (Nat.not_lt_zero i)
  | succ n ih =>
    rw [Cursor.readBytes, List.cons_append, List.getD_cons_succ]
    cases i with
    | zero =>
      rw [readBytes_head, readColumn_zero]
      rfl
    | succ i =>
      rw [ih (c.read ram) (Nat.lt_of_succ_lt_succ hi), readColumn_read]
      rfl

theorem exec_readPanel (h : s.takes p) {n : Byte} (h1 : 1 ≤ n.toNat) (h128 : n.toNat ≤ 128) :
    exec (.readPanel p [n]) s =
      answered (s.setCursor p (Cursor.readBytes s.panel.ram (s.cursor p) n.toNat).2) p .ok
        (Cursor.readBytes s.panel.ram (s.cursor p) n.toNat).1 := by
  change command p s (withArg s (readPanelArg [n]) _) = _
  rw [readPanelArg, if_pos ⟨h1, h128⟩, withArg_some]
  exact command_taken_pair h _ _ _

theorem exec_readPanel_badParam (h : s.takes p) {n : Byte} (hn : n.toNat = 0 ∨ 128 < n.toNat) :
    exec (.readPanel p [n]) s = answered s p .badParam [] := by
  refine exec_misread rfl h ?_
  rw [operandsRead, readPanelArg, if_neg (by omega)]
  rfl

/-! ### The dots (R147, R162) -/

theorem ramDot_eq (ram : Memory 8) (g j : Fin 8) (c : Fin 128) :
    ramDot ram ⟨8 * g.val + j.val, by omega⟩ c = (Memory.read ram (128 * g.val + c.val)).getLsbD j.val := by
  have hpage : (8 * g.val + j.val) / 8 = g.val := by omega
  have hbit : (8 * g.val + j.val) % 8 = j.val := by omega
  simp only [ramDot, ramAddr, hpage, hbit]

/-- Settles O55: writes and reads column by column, dots by what the panel shows. -/
theorem panelTransfers : Obligations.PanelTransfers := by
  refine ⟨fun p bs s h hwf k hk => ⟨fun n hn => exec_writePanel_badParam h hn, fun h1 h128 => ?_⟩,
    fun p n s h => ⟨exec_readPanel_badParam h, fun h1 h128 => ?_⟩, fun x g j c => ?_⟩
  · have hexec := exec_writePanel h h1 h128 hk
    have hx : Memory.wf (s.panel.ram, (s.cursor p).column).1 := hwf
    refine ⟨fun ho => by rw [hexec, if_pos ho], fun ho hopen => by rw [hexec, if_neg ho, if_pos hopen],
      fun ho hclosed => ⟨_, _, ?_, writeBytes_column (s.cursor p).page (s.panel.ram, (s.cursor p).column) bs,
        fun i => writeBytes_inside _ bs hx, writeBytes_last _ bs hx, fun a => writeBytes_outside _ bs hx⟩⟩
    rw [hexec, if_neg ho, if_neg (by simp [hclosed])]
    rfl
  · refine ⟨_, _, _, ?_, readBytes_length s.panel.ram (s.cursor p) n.toNat, ?_,
      fun i hi => readBytes_loaded _ _ hi, readBytes_column s.panel.ram _ _⟩
    · rw [exec_readPanel h h1 h128, readBytes_eq]
    · have hhead := readBytes_head s.panel.ram (s.cursor p) n.toNat
      rwa [List.getD_append _ _ _ _ (by rw [readBytes_length]; exact h1)] at hhead
  · unfold Panel.dot Panel.shows
    cases x.display with
    | off => rfl
    | on =>
      cases x.allPoints with
      | normal => exact ramDot_eq _ g j c
      | forced => rfl

end Steps
end Machine
end Sys2Proof
end

section
/-! The panel mode and the saver (R162, R163), and the opening of a prompt (R155). -/

namespace Sys2Proof
namespace Machine
namespace Steps

variable {s : State} {p : Port} {k : Fin 4}

/-! ### Leaving the saver (R163) -/

theorem mem_seatIds (k : Fin 4) : k ∈ seatIds := by revert k; decide

theorem foldl_restartLamp_phase (xs : List (Fin 4)) (u : State) (hk : k ∈ xs ∨ (u.lamp k).phase = 0) :
    ((xs.foldl State.restartLamp u).lamp k).phase = 0 := by
  induction xs generalizing u with
  | nil => simpa using hk
  | cons x xs ih =>
    refine ih _ ?_
    unfold State.restartLamp
    by_cases hx : k = x
    · subst hx
      exact Or.inr (by simp)
    · simpa [hx] using hk

/-- On leaving SLEEP every lamp starts a fresh period (R163). -/
theorem leaveSaver_sleep (h : s.panel.saver = .sleep) (k : Fin 4) : (s.leaveSaver.lamp k).phase = 0 := by
  unfold State.leaveSaver
  rw [if_pos h]
  exact foldl_restartLamp_phase _ _ (Or.inl (mem_seatIds k))

theorem leaveSaver_awake (h : s.panel.saver ≠ .sleep) :
    s.leaveSaver = { s with panel := { s.panel with saver := .none } } := if_neg h

/-! ### The panel mode (R162, R163) -/

theorem saverKind_eq (s : State) : s.saverKind = if ∃ k, s.effectiveLamp k ≠ .off then .standby else .sleep := by
  have hany : seatIds.any (fun k => s.effectiveLamp k != .off) = true ↔ ∃ k, s.effectiveLamp k ≠ .off := by
    simp [mem_seatIds]
  unfold State.saverKind
  simp only [hany]

/-- What a command of the panel mode makes of the state: the two fields as given, the saver as they fix it, and with
it no more than the lamps' phases (R162, R163). -/
structure ModeSet (s t : State) (d : Display) (a : AllPoints) : Prop where
  display : t.panel.display = d
  allPoints : t.panel.allPoints = a
  entered : d = .off ∧ a = .forced → t.panel.saver =
    if s.panel.saver = .none then (if ∃ k, s.effectiveLamp k ≠ .off then .standby else .sleep) else s.panel.saver
  left : ¬ (d = .off ∧ a = .forced) → t.panel.saver = .none
  fresh : s.panel.saver = .sleep → t.panel.saver = .none → ∀ k, (t.lamp k).phase = 0
  lamps : s.panel.saver ≠ .sleep ∨ t.panel.saver ≠ .none → t.panel.lamps = s.panel.lamps
  modes : ∀ k, (t.lamp k).mode = (s.lamp k).mode
  panel : { t.panel with display := s.panel.display, allPoints := s.panel.allPoints, saver := s.panel.saver,
                         lamps := s.panel.lamps } = s.panel
  rest : { t with panel := s.panel } = s

theorem setPanelMode_set (s : State) (d : Display) (a : AllPoints) : ModeSet s (s.setPanelMode d a) d a := by
  unfold State.setPanelMode
  dsimp only
  by_cases hboth : d = .off ∧ a = .forced
  · rw [if_pos hboth]
    by_cases hnone : s.panel.saver = .none
    · -- the saver is entered
      rw [if_pos hnone]
      exact ⟨rfl, rfl, fun _ => by rw [if_pos hnone]; exact saverKind_eq s, fun h => absurd hboth h,
        fun h => absurd (hnone.symm.trans h) (by decide), fun _ => rfl, fun _ => rfl, rfl, rfl⟩
    · -- the saver stays as it is
      rw [if_neg hnone]
      exact ⟨rfl, rfl, fun _ => by rw [if_neg hnone], fun h => absurd hboth h, fun _ h => absurd h hnone,
        fun _ => rfl, fun _ => rfl, rfl, rfl⟩
  · rw [if_neg hboth]
    by_cases hnone : s.panel.saver = .none
    · -- there is no saver
      rw [if_pos hnone]
      exact ⟨rfl, rfl, fun h => absurd h hboth, fun _ => hnone, fun h => absurd (hnone.symm.trans h) (by decide),
        fun _ => rfl, fun _ => rfl, rfl, rfl⟩
    · -- the saver is left
      rw [if_neg hnone]
      have hsleep := leaveSaver_sleep (s := { s with panel := { s.panel with display := d, allPoints := a } })
      have hawake := leaveSaver_awake (s := { s with panel := { s.panel with display := d, allPoints := a } })
      obtain ⟨ls, heq, hmode⟩ := leaveSaver_eq { s with panel := { s.panel with display := d, allPoints := a } }
      refine ⟨by rw [heq], by rw [heq], fun h => absurd h hboth, fun _ => by rw [heq], fun h _ => hsleep h,
        fun h => ?_, fun k => by rw [heq]; exact hmode k, by rw [heq], by rw [heq]⟩
      rcases h with hwake | hstays
      · rw [hawake hwake]
      · exact absurd (by rw [heq]) hstays

/-- A command of the panel mode is taken from either port. -/
theorem command_setPanelMode (h : s.takes p) (d : Display) (a : AllPoints) :
    command p s (withArg s (noArg []) fun _ => done (s.setPanelMode d a)) = answered (s.setPanelMode d a) p .ok [] :=
  command_taken_pair h _ _ _

/-- Settles O56: each command sets its own field of the panel mode. -/
theorem panelModeCommands : Obligations.PanelModeCommands := by
  intro p s h _ c d a hc
  have hset := setPanelMode_set s d a
  refine ⟨s.setPanelMode d a, ?_, hset.display, hset.allPoints, hset.entered, hset.left, hset.fresh, hset.lamps,
    hset.modes, hset.panel, hset.rest⟩
  simp only [List.mem_cons, List.not_mem_nil, or_false, Prod.mk.injEq] at hc
  rcases hc with ⟨rfl, rfl, rfl⟩ | ⟨rfl, rfl, rfl⟩ | ⟨rfl, rfl, rfl⟩ | ⟨rfl, rfl, rfl⟩ <;>
    exact command_setPanelMode h _ _

/-! ### The pane of a prompt (R155) -/

theorem bitmapWords_length (m : Memory 16) {pr : Prompt} (h : pr.width ≤ 128) : (bitmapWords m pr).length = 128 := by
  simp only [bitmapWords, List.length_append, Memory.length_readSpan, List.length_replicate]
  omega

/-- The words of a pane: the bitmap, and zeros behind it. -/
theorem bitmapWords_getElem (m : Memory 16) (pr : Prompt) (c : Nat) (h : c < (bitmapWords m pr).length) :
    (bitmapWords m pr)[c] = if c < pr.width then Memory.read m (pr.addr.toNat + c) else 0 := by
  simp only [bitmapWords, List.getElem_append, Memory.length_readSpan, Memory.getElem_readSpan, List.getElem_replicate]
  split <;> rfl

/-- The upper page of the pane takes the low bytes. -/
theorem fillPane_upper {ram : Memory 8} (hram : Memory.wf ram) (k : Fin 4) {ws : List Word} (hws : ws.length = 128)
    {c : Nat} (hc : c < 128) : Memory.read (fillPane ram k ws) (128 * (2 * k.val) + c) = lowByte ws[c] := by
  have hcolumn : 128 * (2 * k.val) + c - (128 * (2 * k.val) + 0) = c := by omega
  unfold fillPane ramAddr
  rw [Memory.read_writeSpan (Memory.wf_writeSpan hram _ _), dif_neg (by omega), Memory.read_writeSpan hram,
    dif_pos (by rw [List.length_map]; omega), List.getElem_map]
  simp only [hcolumn]

/-- The lower page takes the high bytes. -/
theorem fillPane_lower {ram : Memory 8} (hram : Memory.wf ram) (k : Fin 4) {ws : List Word} (hws : ws.length = 128)
    {c : Nat} (hc : c < 128) : Memory.read (fillPane ram k ws) (128 * (2 * k.val + 1) + c) = highByte ws[c] := by
  have hcolumn : 128 * (2 * k.val + 1) + c - (128 * (2 * k.val + 1) + 0) = c := by omega
  unfold fillPane ramAddr
  rw [Memory.read_writeSpan (Memory.wf_writeSpan hram _ _), dif_pos (by rw [List.length_map]; omega), List.getElem_map]
  simp only [hcolumn]

theorem fillPane_outside {ram : Memory 8} (hram : Memory.wf ram) (k : Fin 4) {ws : List Word} (hws : ws.length = 128)
    {a : Nat} (ha : a < 256 * k.val ∨ 256 * k.val + 256 ≤ a) :
    Memory.read (fillPane ram k ws) a = Memory.read ram a := by
  unfold fillPane ramAddr
  rw [Memory.read_writeSpan (Memory.wf_writeSpan hram _ _), dif_neg (by rw [List.length_map]; omega),
    Memory.read_writeSpan hram, dif_neg (by rw [List.length_map]; omega)]

/-! ### The opening (R155) -/

/-- Showing the RAM writes the panel mode and the saver, and with them no more than the lamps. -/
theorem showRam_eq (s : State) : ∃ ls, s.showRam =
    { s with panel := { s.panel with display := .on, allPoints := .normal, saver := .none, lamps := ls } } := by
  obtain ⟨ls, h, -⟩ := leaveSaver_eq s
  exact ⟨ls, by rw [State.showRam, h]⟩

/-- A fresh period changes no effective mode. -/
theorem effectiveLamp_relamp (j : Fin 4) (m : LampMode) : (s.relamp j m).effectiveLamp k = s.effectiveLamp k := by
  unfold State.relamp
  split
  · rfl
  · have hmode : ((s.restartLamp j).lamp k).mode = (s.lamp k).mode :=
      (works_setLamp (T := fun _ => False) (s := s) j { s.lamp j with phase := 0 } rfl).mode k
    unfold State.effectiveLamp
    rw [hmode]
    rfl

/-- A fresh period leaves the panel but for its lamps. -/
theorem relamp_panel (j : Fin 4) (m : LampMode) : (s.relamp j m).panel.ram = s.panel.ram ∧
    (s.relamp j m).panel.display = s.panel.display ∧ (s.relamp j m).panel.allPoints = s.panel.allPoints ∧
    (s.relamp j m).panel.saver = s.panel.saver := by
  unfold State.relamp
  split <;> exact ⟨rfl, rfl, rfl, rfl⟩

/-- The panel after an opening: the pane filled, the RAM shown and the saver left. -/
theorem openPrompt_panel (k : Fin 4) (pr : Prompt) :
    (s.openPrompt k pr).panel.ram = fillPane s.panel.ram k (bitmapWords s.pattern pr) ∧
    (s.openPrompt k pr).panel.display = .on ∧ (s.openPrompt k pr).panel.allPoints = .normal ∧
    (s.openPrompt k pr).panel.saver = .none := by
  unfold State.openPrompt
  obtain ⟨hram, hdisplay, hpoints, hsaver⟩ := relamp_panel
    (s := ((s.copyPane k pr).setPrompt k
      { isOpen := true, expected := some pr.expected, width := some pr.width }).showRam) k (s.effectiveLamp k)
  obtain ⟨ls, hshow⟩ := showRam_eq ((s.copyPane k pr).setPrompt k
    { isOpen := true, expected := some pr.expected, width := some pr.width })
  rw [hram, hdisplay, hpoints, hsaver, hshow]
  exact ⟨rfl, rfl, rfl, rfl⟩

/-- An open prompt of a seat outside FAULT makes its lamp FAST (R160). -/
theorem effectiveLamp_open (hs : (s.record k).state ≠ .fault) (ho : (s.prompt k).isOpen = true) :
    s.effectiveLamp k = .fast := by
  rw [State.effectiveLamp, if_neg hs, if_pos ho]

/-- Settles O57: the bitmap lies in the pane, the rest of the RAM as before. -/
theorem promptOpens : Obligations.PromptOpens := by
  intro s k pr hram _ hwidth
  obtain ⟨hfill, hdisplay, hpoints, hsaver⟩ := openPrompt_panel (s := s) k pr
  have hprompt := openPrompt_prompt (s := s) k pr
  have hlen := bitmapWords_length s.pattern hwidth
  have hcursor := (works_openPrompt (T := fun _ => True) (s := s) k pr trivial).cursor
  refine ⟨hprompt, hdisplay, hpoints, hsaver, fun hs => ?_, fun c hc => ?_, fun a ha => ?_, hcursor .a, hcursor .b⟩
  · refine effectiveLamp_open ?_ (by rw [hprompt])
    rw [State.record, (openPrompt_keeps k pr).1]
    exact hs
  · rw [hfill, fillPane_upper hram k hlen hc, fillPane_lower hram k hlen hc, bitmapWords_getElem]
    split <;> exact ⟨rfl, rfl⟩
  · rw [hfill]
    exact fillPane_outside hram k hlen ha

end Steps
end Machine
end Sys2Proof
end

section
/-! A key that answers the prompt of a step (R36, R39 to R41, R156, R158). -/

namespace Sys2Proof
namespace Machine
namespace Steps

variable {s : State} {k : Fin 4} {r : Running}

/-! ### The prompt through the end of a step (R157) -/

theorem closePrompt_prompt (k : Fin 4) :
    (s.closePrompt k).prompt k = { isOpen := false, expected := none, width := none } := by
  unfold State.closePrompt
  simp

/-- The end of a step leaves its prompt closed. -/
theorem endStep_prompt (r : Running) : ((s.endStep k r).prompt k).isOpen = false := by
  rw [endStep_eq]
  simp [State.clearRunning, State.recordResult, State.stopExpectation, closePrompt_prompt]

theorem enterState_prompt (st : SeatState) (d : Option RackTime) (n : Option Nat) (j : Fin 4) :
    (s.enterState k st d n).prompt j = s.prompt j := by
  unfold State.enterState State.postState State.moveSeat
  simp

theorem leaveFor_prompt (st : SeatState) (n : Option Nat) (j : Fin 4) : (s.leaveFor k st n).prompt j = s.prompt j := by
  obtain ⟨-, -, -, -, -, hprompt⟩ := untouched (works_leaveTesting (s := s) k) j
  exact (enterState_prompt st none n j).trans hprompt

/-! ### A step with nothing queued behind it (R41) -/

theorem setQueue_self (s : State) (k : Fin 4) : s.setQueue k (s.seat k).queue = s := setSeat_self s k

/-- The state a seat goes to after the last step of its queue (R41). -/
def stateAfter (o : StepOutcome) (policy : FailPolicy) : SeatState :=
  if 2 ≤ o.rank ∧ policy = .holdSeat then .hold else .powered

theorem stateAfter_ne_testing (o : StepOutcome) (policy : FailPolicy) : stateAfter o policy ≠ .testing := by
  unfold stateAfter
  split <;> decide

/-- With nothing queued the seat leaves TESTING, whatever the outcome. -/
theorem settle_alone (hq : (s.seat k).queue = []) (o : StepOutcome) (policy : FailPolicy) :
    ∃ n, s.settle k o policy = s.leaveFor k (stateAfter o policy) n := by
  by_cases ho : 2 ≤ o.rank ∧ policy = .holdSeat
  · have hself : s.setQueue k [] = s := hq ▸ setQueue_self s k
    exact ⟨_, by rw [settle_hold ho.1 ho.2, hself, stateAfter, if_pos ho]⟩
  · exact ⟨_, by rw [settle_powered ho hq, stateAfter, if_neg ho]⟩

/-- The end of the last step of a queue: the seat leaves TESTING by the fail policy, the entry is appended, and the
prompt is closed (R39 to R41). -/
theorem finishStep_alone (hq : (s.seat k).queue = []) :
    ((s.finishStep k r).record k).state = stateAfter (judgeStep r.judged).2 r.step.policy ∧
    ((s.finishStep k r).seat k).running = none ∧
    ((s.finishStep k r).seat k).results = (s.seat k).results.append (s.endEntry r) ∧
    ((s.finishStep k r).prompt k).isOpen = false := by
  obtain ⟨-, equeue, erun, eres⟩ := endStep_seat (s := s) (k := k) r
  obtain ⟨n, hsettle⟩ := settle_alone (equeue.trans hq) (judgeStep r.judged).2 r.step.policy
  obtain ⟨lrec, -, lrun, lres, -⟩ :=
    leaveFor_seat (s := s.endStep k r) (k := k) (stateAfter (judgeStep r.judged).2 r.step.policy) n
  have w := sequence_after_leaveFor (s := s.endStep k r) (k := k) (stateAfter (judgeStep r.judged).2 r.step.policy) n
    (stateAfter_ne_testing _ _) [.arbiter, .consider k]
  obtain ⟨trec, -, trun, tres⟩ := others_keep w
  rw [finishStep_eq, hsettle]
  refine ⟨by rw [trec, lrec]; rfl, trun.trans (lrun.trans erun), tres.trans (lres.trans eres), ?_⟩
  rw [w.othersPrompt k (fun h => h rfl), leaveFor_prompt]
  exact endStep_prompt r

/-! ### The report of an answer (R36, R156) -/

/-- A key's debounced level is no part of a seat or a prompt. -/
theorem settleKey_keeps (y : Key) (k : Fin 4) : (s.settleKey y).seat k = s.seat k ∧
    (s.settleKey y).prompt k = s.prompt k := by
  simp [State.settleKey]

theorem settleKey_isReady (y : Key) : (s.settleKey y).isReady = s.isReady := by
  simp [State.settleKey]

theorem exec_keyPress {a : YesNo} (hp : s.pressReady (.answer k a) = true) (hr : s.isReady = true) :
    exec (.keyPress k a) s = .next ((s.settleKey (.answer k a)).keyPressed k a) := by
  change whenDue s (s.pressReady (.answer k a)) (State.afterLoad _ _) = _
  rw [hp, whenDue_true, State.afterLoad, settleKey_isReady, if_pos hr]

theorem answerVerdict_eq (x : Expected) (a : YesNo) : answerVerdict (some x) a =
    if x = .either ∨ (x = .yes ∧ a = .yes) ∨ (x = .no ∧ a = .no) then .pass else .operatorNo := by
  cases x <;> cases a <;> rfl

/-- Of the two verdicts an answer gives, OPERATOR_NO alone is a failing one (R41, R156). -/
theorem stateAfter_answer (x : Expected) (a : YesNo) (policy : FailPolicy) :
    stateAfter (answerVerdict (some x) a) policy =
      if answerVerdict (some x) a = .operatorNo ∧ policy = .holdSeat then .hold else .powered := by
  cases x <;> cases a <;> cases policy <;> rfl

/-- A running step whose prompt is its only part still open. -/
structure OnlyPrompt (r : Running) : Prop where
  measReports : r.measReports = []
  expectation : r.step.expectation = none
  expectReport : r.expectReport = none
  promptReport : r.promptReport = none

theorem OnlyPrompt.report (h : OnlyPrompt r) (q : PromptReport) :
    r.reportPrompt q = { r with promptReport := some q } := by
  simp only [Running.reportPrompt, h.promptReport]

/-- The report is the last one missing (R36). -/
theorem OnlyPrompt.complete (h : OnlyPrompt r) (q : PromptReport) : (r.reportPrompt q).complete = true := by
  rw [h.report]
  cases hp : r.step.prompt <;> simp [Running.complete, Running.verdicts, h.measReports, h.expectation, hp]

/-- The prompt decides, with the verdict reported (R38). -/
theorem OnlyPrompt.judge (h : OnlyPrompt r) (q : PromptReport) :
    judgeStep (r.reportPrompt q).judged = (.prompt, q.verdict) := by
  rw [h.report]
  simp [Running.judged, judgeStep, worseOf, h.measReports, h.expectReport]

/-- The state in which the step ends that a key answers: the prompt closed and its report stored. -/
def answeredState (s : State) (k : Fin 4) (r : Running) (q : PromptReport) : State :=
  (s.closePrompt k).setRunning k (some (r.reportPrompt q))

/-- A key that answers the only open part ends the step (R36, R156). -/
theorem keyPressed_ends (ho : (s.prompt k).isOpen = true) (hr : (s.seat k).running = some r) (h : OnlyPrompt r)
    (a : YesNo) {q : PromptReport} (hq : q = { verdict := answerVerdict (s.prompt k).expected a, answer := some a }) :
    s.keyPressed k a = (answeredState s k r q).finishStep k (r.reportPrompt q) := by
  have hrun : ((s.closePrompt k).seat k).running = some r := by rw [(closePrompt_keeps k).1, hr]
  rw [State.keyPressed, if_pos ho, ← hq]
  simp only [State.deliverPrompt, hrun, State.afterReport, h.complete, if_true]
  rfl

/-- With nothing queued behind the step, the seat leaves TESTING with the answer in its results. -/
theorem keyPressed_alone (ho : (s.prompt k).isOpen = true) (hr : (s.seat k).running = some r) (h : OnlyPrompt r)
    (hqueue : (s.seat k).queue = []) (a : YesNo) :
    ((s.keyPressed k a).prompt k).isOpen = false ∧ ((s.keyPressed k a).seat k).running = none ∧
    ((s.keyPressed k a).record k).state = stateAfter (answerVerdict (s.prompt k).expected a) r.step.policy ∧
    ∃ e, ((s.keyPressed k a).seat k).results = (s.seat k).results.append e ∧ e.stepId = r.step.id ∧
      e.outcome = answerVerdict (s.prompt k).expected a ∧ e.deciding = .prompt ∧ e.answer = some a := by
  generalize hq : PromptReport.mk (answerVerdict (s.prompt k).expected a) (some a) = q
  have hseat : (answeredState s k r q).seat k = { s.seat k with running := some (r.reportPrompt q) } := by
    simp [answeredState]
  have hjudge := h.judge q
  obtain ⟨tstate, trun, tres, tprompt⟩ :=
    finishStep_alone (s := answeredState s k r q) (r := r.reportPrompt q) (k := k) (by rw [hseat]; exact hqueue)
  rw [keyPressed_ends ho hr h a hq.symm]
  refine ⟨tprompt, trun, ?_, _, by rw [tres, hseat], ?_, ?_, congrArg Prod.fst hjudge, ?_⟩
  · rw [tstate, hjudge, h.report, ← hq]
  · rw [State.endEntry, h.report]
  · rw [State.endEntry, hjudge, ← hq]
  · rw [State.endEntry, h.report, ← hq]
    rfl

/-- Settles O58: the answer is the last report, and the step it ends has nothing queued behind it. -/
theorem keyAnswersPrompt : Obligations.KeyAnswersPrompt := by
  intro s k a r x out hpress hready hopen hexpected _ hrunning hmeas hexpectation hereport hpreport hqueue hout
  obtain ⟨hseat, hprompt⟩ := settleKey_keeps (s := s) (.answer k a) k
  rw [← answerVerdict_eq x a] at hout
  obtain ⟨tprompt, trun, tstate, e, tres, hid, houtcome, hdeciding, hanswer⟩ :=
    keyPressed_alone (s := s.settleKey (.answer k a)) (by rw [hprompt]; exact hopen) (by rw [hseat]; exact hrunning)
      ⟨hmeas, hexpectation, hereport, hpreport⟩ (by rw [hseat]; exact hqueue) a
  rw [hprompt, hexpected] at tstate houtcome
  rw [hseat] at tres
  exact ⟨_, exec_keyPress hpress hready, tprompt, trun, by rw [tstate, stateAfter_answer, hout],
    e, tres, hid, houtcome.trans hout.symm, hdeciding, hanswer⟩

end Steps
end Machine
end Sys2Proof
end

section
/-! The STOP key (R159). The order of the seats is open and the arbiter runs after each (log entries 11 and 12), so that
the start of a waiting step lies between two stops: no start brings a seat into TESTING. -/

namespace Sys2Proof
namespace Machine
namespace Steps

variable {s t u : State} {k : Fin 4}

/-! ### A start leaves the seat's record (R34, R35) -/

/-- Folded work that leaves the record of seat `k` each time leaves it in the end. -/
theorem foldl_record {α : Type} {f : State → α → State} (h : ∀ u a, (f u a).record k = u.record k)
    (xs : List α) (s : State) : (xs.foldl f s).record k = s.record k := by
  induction xs generalizing s with
  | nil => rfl
  | cons a xs ih => exact (ih (f s a)).trans (h s a)

theorem editRunning_record (j : Fin 4) (f : Running → Running) : (s.editRunning j f).record k = s.record k := by
  unfold State.editRunning
  split
  · rfl
  · simp

theorem bindEntry_record (j : Fin 4) (x : Fin 3 × ChannelEntry) : (bindEntry j s x).record k = s.record k := by
  unfold bindEntry
  split
  · rfl
  · next c hc =>
    rw [editRunning_record]
    exact (untouched (works_bindChannel c j x.1 x.2 s.now (freeChannel?_free hc)) k).1

theorem bindMeasurement_record (j : Fin 4) (w : Nat) (x : Fin 2 × Measurement) :
    (bindMeasurement j w s x).record k = s.record k := by
  unfold bindMeasurement
  split
  · rfl
  · next m hm =>
    rw [(untouched (works_bindSlot m j x.1 x.2 s.now w (by rw [editRunning_slot]; exact freeSlot?_free hm)) k).1]
    exact editRunning_record j _

theorem bindStep_record (st : Step) : (s.bindStep k st).record k = s.record k := by
  calc (s.bindStep k st).record k
    _ = (((s.freeReplaced k st).bindEntries k st).bindMeasurements k st).record k := (opened_keeps st).1
    _ = ((s.freeReplaced k st).bindEntries k st).record k := foldl_record (fun _ x => bindMeasurement_record k _ x) _ _
    _ = (s.freeReplaced k st).record k := foldl_record (fun _ x => bindEntry_record k x) _ _
    _ = s.record k := (untouched (works_freeReplaced_untouched st) k).1

/-! ### No start brings a seat into TESTING -/

/-- An abort leaves the state of its seat (R44). -/
theorem abortRunning_state (c : Cause) : ((s.abortRunning k c).record k).state = (s.record k).state := by
  cases hr : (s.seat k).running with
  | none => simp only [State.abortRunning, hr]
  | some r => exact (abortRunning_seat hr).1

theorem startTaken_state (st : Step) : ((s.startTaken k st).1.record k).state = (s.record k).state := by
  have hbound : (((s.bindStep k st).firstTriggers ((s.bindStep k st).stepChannels k)).1.record k) = s.record k :=
    (untouched (works_firstTriggers _) k).1.trans (bindStep_record st)
  unfold State.startTaken
  split
  · exact abortRunning_state _
  · split
    · exact abortRunning_state _
    · dsimp only
      split
      · exact (abortRunning_state _).trans (congrArg SeatRecord.state hbound)
      · exact congrArg SeatRecord.state hbound

/-- The seats in TESTING were in TESTING before. -/
def NoneEnters (s t : State) : Prop := ∀ k, (t.record k).state = .testing → (s.record k).state = .testing

theorem NoneEnters.refl (s : State) : NoneEnters s s := fun _ h => h

theorem NoneEnters.trans (h : NoneEnters s t) (g : NoneEnters t u) : NoneEnters s u := fun k hk => h k (g k hk)

/-- Work on one seat brings none into TESTING when it does not bring that one. -/
theorem NoneEnters.of_works (w : Works (· = k) s t)
    (h : (t.record k).state = .testing → (s.record k).state = .testing) : NoneEnters s t := by
  intro j hj
  by_cases hjk : j = k
  · subst hjk
    exact h hj
  · rwa [w.othersRecord j hjk] at hj

theorem leaveFor_not_testing {st : SeatState} (hst : st ≠ .testing) (n : Option Nat) :
    ((s.leaveFor k st n).record k).state ≠ .testing := by
  rw [(leaveFor_seat st n).1]
  exact hst

theorem settle_testing {o : StepOutcome} {policy : FailPolicy}
    (h : ((s.settle k o policy).record k).state = .testing) : (s.record k).state = .testing := by
  unfold State.settle at h
  split at h
  · exact absurd h (leaveFor_not_testing (by decide) _)
  · split at h
    · exact absurd h (leaveFor_not_testing (by decide) _)
    · exact h

theorem startHead_noneEnters (s : State) (k : Fin 4) : NoneEnters s (s.startHead k).1 := by
  refine NoneEnters.of_works (works_startHead k rfl) fun h => ?_
  unfold State.startHead at h
  split at h
  · exact h
  · next st rest _ =>
    have htaken : (((s.takeHead k st rest).startTaken k st).1.record k).state = (s.record k).state := by
      rw [startTaken_state, (takeHead_keeps k st rest).1]
    dsimp only at h
    split at h
    · exact htaken ▸ settle_testing h
    · exact htaken ▸ h

/-- The last stages of an event bring no seat into TESTING (R28, R31). -/
theorem runTasks_noneEnters (n : Nat) (ts : List Task) (s : State) : NoneEnters s (s.runTasks n ts) := by
  induction n generalizing s ts with
  | zero => exact NoneEnters.refl s
  | succ n ih =>
    match ts with
    | [] => exact NoneEnters.refl s
    | .arbiter :: ts =>
      unfold State.runTasks
      split
      · exact ih _ _
      · next k ws _ =>
        split
        · exact (startHead_noneEnters { s with waitList := ws } k).trans (ih _ _)
        · exact ih _ _
    | .consider k :: ts =>
      unfold State.runTasks
      split
      · split
        · exact (startHead_noneEnters s k).trans (ih _ _)
        · exact ih ts (s.joinWait k)
      · exact ih _ _

/-! ### The stop of one seat (R18, R45) -/

theorem haltSeat_not_testing (s : State) (k : Fin 4) (c : Cause) : ((s.haltSeat k c).record k).state ≠ .testing :=
  leaveFor_not_testing (by decide) none

theorem haltSeat_noneEnters (s : State) (k : Fin 4) (c : Cause) : NoneEnters s (s.haltSeat k c) :=
  NoneEnters.of_works (works_haltSeat k c rfl) fun h => absurd h (haltSeat_not_testing s k c)

theorem stopOne_noneEnters (s : State) (k : Fin 4) : NoneEnters s (stopOne s k) := by
  unfold stopOne
  split
  · exact (haltSeat_noneEnters s k .stopKey).trans (runTasks_noneEnters _ _ _)
  · exact NoneEnters.refl s

theorem stopOne_not_testing (s : State) (k : Fin 4) : ((stopOne s k).record k).state ≠ .testing := by
  unfold stopOne
  split
  · exact fun h => haltSeat_not_testing s k .stopKey (runTasks_noneEnters _ _ _ k h)
  · assumption

theorem foldl_stopOne_noneEnters (ys : List (Fin 4)) (s : State) : NoneEnters s (ys.foldl stopOne s) := by
  induction ys generalizing s with
  | nil => exact NoneEnters.refl s
  | cons y ys ih => exact (stopOne_noneEnters s y).trans (ih _)

/-- A seat that was stopped stays out of TESTING while the others are stopped. -/
theorem foldl_stopOne_not_testing {ys : List (Fin 4)} (hk : k ∈ ys) (s : State) :
    ((ys.foldl stopOne s).record k).state ≠ .testing := by
  obtain ⟨before, after, rfl⟩ := List.append_of_mem hk
  rw [List.foldl_append, List.foldl_cons]
  exact fun h => stopOne_not_testing _ k (foldl_stopOne_noneEnters after _ k h)

/-! ### The stops with no seat waiting -/

/-- The sequencer's part of seat `k` stays. -/
def SeatKept (k : Fin 4) (s t : State) : Prop :=
  t.record k = s.record k ∧ (t.seat k).queue = (s.seat k).queue ∧ (t.seat k).running = (s.seat k).running ∧
    (t.seat k).results = (s.seat k).results

theorem SeatKept.refl (k : Fin 4) (s : State) : SeatKept k s s := ⟨rfl, rfl, rfl, rfl⟩

theorem SeatKept.trans (h : SeatKept k s t) (g : SeatKept k t u) : SeatKept k s u := by
  obtain ⟨hrec, hq, hrun, hres⟩ := h
  obtain ⟨grec, gq, grun, gres⟩ := g
  exact ⟨grec.trans hrec, gq.trans hq, grun.trans hrun, gres.trans hres⟩

/-- Seat `k` went to HOLD with its queue kept, and its running step, if there was one, is recorded as aborted. -/
def Halted (k : Fin 4) (s t : State) : Prop :=
  (t.record k).state = .hold ∧ (t.seat k).queue = (s.seat k).queue ∧ (t.seat k).running = none ∧
    ∀ r, (s.seat k).running = some r → ∃ e, (t.seat k).results = (s.seat k).results.append e ∧
      e.stepId = r.step.id ∧ e.outcome = .aborted ∧ e.cause = some .stopKey

theorem Halted.of_kept (h : SeatKept k s t) (g : Halted k t u) : Halted k s u := by
  obtain ⟨-, hq, hrun, hres⟩ := h
  unfold Halted at g ⊢
  rwa [hq, hrun, hres] at g

theorem Halted.kept (h : Halted k s t) (g : SeatKept k t u) : Halted k s u := by
  obtain ⟨grec, gq, grun, gres⟩ := g
  unfold Halted at h ⊢
  rwa [grec, gq, grun, gres]

theorem haltSeat_halted (s : State) (k : Fin 4) : Halted k s (s.haltSeat k .stopKey) := by
  obtain ⟨lrec, lqueue, lrun, lres, -⟩ := leaveFor_seat (s := s.abortRunning k .stopKey) (k := k) .hold none
  have hstate : ((s.haltSeat k .stopKey).record k).state = .hold := congrArg SeatRecord.state lrec
  cases hr : (s.seat k).running with
  | none =>
    have hnone : s.abortRunning k .stopKey = s := by simp only [State.abortRunning, hr]
    rw [hnone] at lqueue lrun
    refine ⟨hstate, ?_, ?_, fun r h => by cases hr.symm.trans h⟩
    · rw [State.haltSeat, hnone, lqueue]
    · rw [State.haltSeat, hnone, lrun, hr]
  | some r =>
    obtain ⟨-, aqueue, arun, -, e, ares, hid, hout, -, hcause, -⟩ := abortRunning_seat (c := .stopKey) hr
    refine ⟨hstate, lqueue.trans aqueue, lrun.trans arun, fun r' h => ?_⟩
    obtain rfl : r = r' := Option.some.inj (hr.symm.trans h)
    exact ⟨e, lres.trans ares, hid, hout, hcause⟩

theorem haltSeat_kept {j : Fin 4} (hj : j ≠ k) (c : Cause) : SeatKept k s (s.haltSeat j c) :=
  others_keep (works_haltSeat j c hj)

theorem haltSeat_waitList (hw : s.waitList = []) (k : Fin 4) (c : Cause) : (s.haltSeat k c).waitList = [] := by
  rw [State.haltSeat, leaveFor_waitList, abortRunning_waitList, hw]
  rfl

/-- With no seat waiting the arbiter has nothing to start. -/
theorem stopOne_eq (hw : s.waitList = []) (k : Fin 4) :
    stopOne s k = if (s.record k).state = .testing then s.haltSeat k .stopKey else s := by
  rw [stopOne, State.arbitrate, sequence_arbiter_idle (haltSeat_waitList hw k _), sequence_nil]

theorem foldl_stopOne_waitList (hw : s.waitList = []) (ys : List (Fin 4)) : (ys.foldl stopOne s).waitList = [] := by
  induction ys generalizing s with
  | nil => exact hw
  | cons y ys ih =>
    refine ih ?_
    rw [stopOne_eq hw]
    split
    · exact haltSeat_waitList hw y _
    · exact hw

/-- A seat that is not among those stopped is left alone. -/
theorem foldl_stopOne_kept (hw : s.waitList = []) {ys : List (Fin 4)} (hk : k ∉ ys) :
    SeatKept k s (ys.foldl stopOne s) := by
  induction ys generalizing s with
  | nil => exact SeatKept.refl k s
  | cons y ys ih =>
    have hy : y ≠ k := fun e => hk (e ▸ List.mem_cons_self)
    have hone : SeatKept k s (stopOne s y) := by
      rw [stopOne_eq hw]
      split
      · exact haltSeat_kept hy _
      · exact SeatKept.refl k s
    exact hone.trans (ih (foldl_stopOne_waitList hw [y]) fun h => hk (List.mem_cons_of_mem _ h))

/-- A seat in TESTING that is stopped once is halted, whatever is stopped before and after it. -/
theorem foldl_stopOne_halted (hw : s.waitList = []) {ys : List (Fin 4)} (hn : ys.Nodup) (hk : k ∈ ys)
    (ht : (s.record k).state = .testing) : Halted k s (ys.foldl stopOne s) := by
  obtain ⟨before, after, rfl⟩ := List.append_of_mem hk
  obtain ⟨-, hafter, hdisjoint⟩ := List.nodup_append.mp hn
  have hkbefore : k ∉ before := fun h => hdisjoint k h k List.mem_cons_self rfl
  have hkafter : k ∉ after := (List.nodup_cons.mp hafter).1
  have hbefore := foldl_stopOne_kept hw hkbefore
  have hwait := foldl_stopOne_waitList hw before
  have hstop : stopOne (before.foldl stopOne s) k = (before.foldl stopOne s).haltSeat k .stopKey := by
    rw [stopOne_eq hwait, if_pos (by rw [hbefore.1, ht])]
  rw [List.foldl_append, List.foldl_cons, hstop]
  exact ((haltSeat_halted _ k).of_kept hbefore).kept (foldl_stopOne_kept (haltSeat_waitList hwait k _) hkafter)

/-! ### The press (R158, R159) -/

theorem exec_stopKeyPress (hp : s.pressReady .stop = true) (hr : s.isReady = true) :
    exec .stopKeyPress s = .next (s.settleKey .stop).stopPressed := by
  change whenDue s (s.pressReady .stop) (State.afterLoad _ _) = _
  rw [hp, whenDue_true, State.afterLoad, settleKey_isReady, if_pos hr]

/-- The press stops the seats in TESTING, each once, in some order. -/
theorem stopPressed_eq (s : State) : ∃ (ys : List (Fin 4)) (n : Nat), ys.Nodup ∧
    (∀ k, k ∈ ys ↔ (s.record k).state = .testing) ∧ s.stopPressed = ys.foldl stopOne { s with draws := n } := by
  obtain ⟨ys, n, hperm, h⟩ :=
    takeInOpenOrder_eq s (seatIds.filter fun k => (s.record k).state = .testing) stopOne
  refine ⟨ys, n, hperm.nodup_iff.mpr (List.Nodup.filter _ (by decide)), fun k => ?_, h⟩
  rw [hperm.mem_iff, List.mem_filter, decide_eq_true_iff]
  exact and_iff_right (mem_seatIds k)

/-- Settles O59: each seat in TESTING is stopped once, and neither another stop nor a start brings it back. -/
theorem stopKeyHoldsEverySeat : Obligations.StopKeyHoldsEverySeat := by
  intro s hpress hready
  obtain ⟨ys, n, hnodup, hmem, hstop⟩ := stopPressed_eq (s.settleKey .stop)
  have hseat : ∀ k, State.seat { s.settleKey .stop with draws := n } k = s.seat k := fun k =>
    (settleKey_keeps .stop k).1
  refine ⟨_, exec_stopKeyPress hpress hready, fun k => ?_, stopPressed_pattern.trans (setKey_pattern _ _),
    fun hw => ?_⟩
  · rw [hstop]
    intro h
    have hbefore := foldl_stopOne_noneEnters ys _ k h
    exact foldl_stopOne_not_testing ((hmem k).mpr hbefore) _ h
  · rw [hstop]
    have hwait : State.waitList { s.settleKey .stop with draws := n } = [] := by simpa [State.settleKey] using hw
    have hrecord : ∀ k, (s.settleKey .stop).record k = s.record k := fun k => congrArg Seat.record (hseat k)
    refine ⟨fun k hk => ?_, fun k hk => ?_⟩
    · have htesting : ((s.settleKey .stop).record k).state = .testing := (hrecord k).symm ▸ hk
      have hhalted := foldl_stopOne_halted hwait hnodup ((hmem k).mpr htesting) htesting
      unfold Halted at hhalted
      rwa [hseat] at hhalted
    · obtain ⟨krec, -, -, kres⟩ := foldl_stopOne_kept hwait (k := k) fun h => hk (hrecord k ▸ (hmem k).mp h)
      exact ⟨krec.trans (hrecord k), kres.trans (by rw [hseat])⟩

end Steps
end Machine
end Sys2Proof
end

section
/-! The result store and its two commands (R168, R169, R172, R173). -/

namespace Sys2Proof
namespace Machine
namespace Steps

variable {s : State} {p : Port} {k : Fin 4} {r : ResultStore} {e : ResultEntry}

/-! ### The summary (R169) -/

theorem worse_eq_or (a b : Summary) : a.worse b = a ∨ a.worse b = b := by
  unfold Summary.worse
  split
  · exact Or.inr rfl
  · exact Or.inl rfl

theorem code_worse (a b : Summary) : (a.worse b).code = max a.code b.code := by
  unfold Summary.worse
  split <;> omega

theorem summaryClass_eq (o : StepOutcome) : o.summaryClass =
    if o = .pass then .pass else if o = .marginal then .marginal else if o = .aborted then .aborted else .fail := by
  cases o <;> rfl

/-! ### An entry appended (R168) -/

/-- The summary follows every outcome, stored or not. -/
theorem append_summary (r : ResultStore) (e : ResultEntry) :
    (r.append e).summary = r.summary.worse e.outcome.summaryClass := by
  unfold ResultStore.append
  dsimp only
  split <;> rfl

theorem append_stored (h : r.entries.length < Config.resultDepth) :
    (r.append e).entries = r.entries ++ [e] ∧ (r.append e).truncated = r.truncated := by
  simp only [ResultStore.append, if_pos h, and_self]

theorem append_full (h : Config.resultDepth ≤ r.entries.length) :
    (r.append e).entries = r.entries ∧ (r.append e).truncated = true := by
  simp only [ResultStore.append, if_neg (Nat.not_lt.mpr h), and_self]

/-! ### CLEAR_RESULTS (R172) -/

/-- From the owner, or from either port when the seat is unowned, the seat's state decides. -/
theorem exec_clearResults (h : s.takes p) (ho : (s.record k).owner ≠ some (otherPort p)) :
    exec (.clearResults p [byteOf k.val]) s =
      if (s.record k).state = .testing then answered s p .wrongState []
      else answered (s.clearResults k) p .ok [byteOf (s.seat k).results.entries.length] := by
  change command p s (withArg s (indexArg 4 _) _) = _
  rw [indexArg_byteOf (by decide), withArg_some, ifOwnerOrFree_taken ho]
  by_cases htesting : (s.record k).state = .testing
  · rw [if_pos htesting, bne_eq_false_iff_eq.mpr htesting]
    exact command_taken_pair h _ _ _
  · rw [if_neg htesting, bne_iff_ne.mpr htesting]
    exact command_taken_pair h _ _ _

/-! ### SET_SERIAL (R173) -/

theorem all_serialChar (x : List Byte) :
    x.all serialChar = true ↔ ∀ b ∈ x, 0x20 ≤ b.toNat ∧ b.toNat ≤ 0x7E := by
  simp only [List.all_eq_true, serialChar, Bool.and_eq_true, decide_eq_true_iff]

theorem setSerialArg_eq (k : Fin 4) (n : Byte) (x : List Byte) : setSerialArg ([byteOf k.val, n] ++ x) =
    if n.toNat ≤ 24 ∧ x.length = n.toNat ∧ ∀ b ∈ x, 0x20 ≤ b.toNat ∧ b.toNat ≤ 0x7E then some (k, x) else none := by
  simp only [List.cons_append, List.nil_append, setSerialArg, finArg_byteOf (by decide : 4 ≤ 256), all_serialChar]

theorem exec_setSerial_badParam (h : s.takes p) {n : Byte} {x : List Byte}
    (hx : 24 < n.toNat ∨ x.length ≠ n.toNat ∨ ∃ b ∈ x, b.toNat < 0x20 ∨ 0x7E < b.toNat) :
    exec (.setSerial p ([byteOf k.val, n] ++ x)) s = answered s p .badParam [] := by
  refine exec_misread rfl h ?_
  rw [operandsRead, setSerialArg_eq, if_neg]
  · rfl
  · rintro ⟨hn, hlength, hchars⟩
    rcases hx with hn' | hlength' | ⟨b, hb, hb'⟩
    · omega
    · exact hlength' hlength
    · have := hchars b hb
      omega

theorem serialFixed_iff : s.serialFixed k = true ↔
    (s.record k).serial ≠ none ∧ (s.seat k).results.summary ≠ .none := by
  rw [State.serialFixed, Bool.and_eq_true, Option.isSome_iff_ne_none, bne_iff_ne]

/-- From the owner and with a text in order: the state first, then the recorded results. -/
theorem exec_setSerial (h : s.takes p) (ho : (s.record k).owner = some p) {x : List Byte} (hlength : x.length ≤ 24)
    (hchars : ∀ b ∈ x, 0x20 ≤ b.toNat ∧ b.toNat ≤ 0x7E) :
    exec (.setSerial p ([byteOf k.val, byteOf x.length] ++ x)) s =
      if (s.record k).state = .vacant then answered s p .wrongState []
      else if (s.record k).serial ≠ none ∧ (s.seat k).results.summary ≠ .none then answered s p .resultsPending []
      else answered (s.setRecord k { s.record k with serial := some x }) p .ok [] := by
  have hn : (byteOf x.length).toNat = x.length := byteOf_toNat (by omega)
  change command p s (withArg s (setSerialArg _) _) = _
  rw [setSerialArg_eq, hn, if_pos ⟨hlength, rfl, hchars⟩, withArg_some, ifOwner_owner ho]
  by_cases hvacant : (s.record k).state = .vacant
  · rw [if_pos hvacant, bne_eq_false_iff_eq.mpr hvacant]
    exact command_taken_pair h _ _ _
  · rw [if_neg hvacant, bne_iff_ne.mpr hvacant, require_true, command_require h]
    simp only [← serialFixed_iff]
    cases s.serialFixed k <;> rfl

/-- Settles O60: an append by its summary and by the room in the list, each command by its conditions in the order of
R13. -/
theorem resultStoreLaws : Obligations.ResultStoreLaws := by
  refine ⟨fun r e => ?_, fun p k s h => ⟨fun ho hst => ?_, fun ho hst => ?_,
    fun x hlength hchars ho => exec_setSerial h ho hlength hchars, fun n x hx => exec_setSerial_badParam h hx⟩⟩
  · rw [append_summary, code_worse]
    exact ⟨worse_eq_or _ _, le_max_left _ _, le_max_right _ _, summaryClass_eq _, by decide, append_stored, append_full⟩
  · rw [exec_clearResults h ho, if_neg hst]
    rfl
  · rw [exec_clearResults h ho, if_pos hst]

end Steps
end Machine
end Sys2Proof
end

section
/-! What a link command does, said once for every command of the table but STATUS: it passes the checks of R178 and
then either answers OK or ACCEPTED, or refuses without effect and without result. -/

namespace Sys2Proof
namespace Machine
namespace Steps

variable {s t : State} {p : Port} {ps : List Byte} {body : State × Answer}

/-! ### Refusals have no effect (R178) -/

/-- What a command's own rule gives is OK or ACCEPTED, or leaves the state and gives no result (R178). -/
def RefusesCleanly (s : State) (body : State × Answer) : Prop :=
  body.2.status ≠ .ok → body.2.status ≠ .accepted → body.1 = s ∧ body.2.result = []

theorem refuse_refusesCleanly (st : Status) : RefusesCleanly s (refuse s st) := fun _ _ => ⟨rfl, rfl⟩

theorem done_refusesCleanly (t : State) : RefusesCleanly s (done t) := fun h => absurd rfl h

theorem doneWith_refusesCleanly (t : State) (bytes : List Byte) : RefusesCleanly s (doneWith t bytes) :=
  fun h => absurd rfl h

theorem accepted_refusesCleanly (t : State) : RefusesCleanly s (accepted t) := fun _ h => absurd rfl h

theorem withArg_refusesCleanly {α : Type} {arg : Option α} {body : α → State × Answer}
    (hb : ∀ x, RefusesCleanly s (body x)) : RefusesCleanly s (withArg s arg body) := by
  cases arg with
  | none => exact refuse_refusesCleanly .badParam
  | some x => exact hb x

theorem require_refusesCleanly {cond : Bool} {st : Status} (hb : RefusesCleanly s body) :
    RefusesCleanly s (require s cond st body) := by
  cases cond with
  | false => exact refuse_refusesCleanly st
  | true => exact hb

theorem ifOwner_refusesCleanly {k : Fin 4} (hb : RefusesCleanly s body) : RefusesCleanly s (ifOwner s p k body) := by
  unfold ifOwner
  split
  · exact hb
  · exact refuse_refusesCleanly .notOwner

theorem ifOwnerOrFree_refusesCleanly {k : Fin 4} (hb : RefusesCleanly s body) :
    RefusesCleanly s (ifOwnerOrFree s p k body) := by
  unfold ifOwnerOrFree
  split
  · exact refuse_refusesCleanly .notOwner
  · exact hb

/-- CLAMP answers OK where the confirm is closed already, else ACCEPTED (R14). -/
theorem clamp_refusesCleanly (k : Fin 4) : RefusesCleanly s (s.clamp k) := by
  unfold State.clamp
  split
  · exact done_refusesCleanly _
  · exact accepted_refusesCleanly _

/-! ### Every link command (R178, R179) -/

/-- Every link command but STATUS passes the checks of R178 to a body that refuses without effect. -/
theorem exec_call_eq_command {c : Instr} (hc : callOf c = some (p, ps)) (s : State) :
    ∃ body, exec c s = command p s body ∧ RefusesCleanly s body := by
  cases c <;> cases hc
  case readNotice | readSeat | readStepState | readSnapshot | readPattern | readRegions | readProgram | readChannel
     | readOutputs | readFrameSlot | readCalibration | readSlot | readLimit | readCapture | captureStatus | readPanel
     | readPanelState | readResult | readSummary =>
    exact ⟨_, rfl, withArg_refusesCleanly fun _ => doneWith_refusesCleanly _ _⟩
  case setNoticeLevel | setThreshold | portReset | setCalibration | panelOn | panelOff | allPointsNormal
     | allPointsForced =>
    exact ⟨_, rfl, withArg_refusesCleanly fun _ => done_refusesCleanly _⟩
  case claimSeat | shareRegion | dropRegion | writePattern | writeProgram | eraseProgram | writeLimit | eraseLimit
     | setCursor | rmwBegin | rmwEnd =>
    exact ⟨_, rfl, withArg_refusesCleanly fun _ => require_refusesCleanly (done_refusesCleanly _)⟩
  case storeCalibration =>
    exact ⟨_, rfl, withArg_refusesCleanly fun _ => require_refusesCleanly (accepted_refusesCleanly _)⟩
  case writePanel =>
    exact ⟨_, rfl, withArg_refusesCleanly fun _ => require_refusesCleanly
      (require_refusesCleanly (done_refusesCleanly _))⟩
  case takeRegion =>
    refine ⟨_, rfl, withArg_refusesCleanly fun r => ?_⟩
    split
    · exact done_refusesCleanly _
    · exact require_refusesCleanly (done_refusesCleanly _)
  case setFrameSlot | setFilter | setAcceptLong | setLamp =>
    exact ⟨_, rfl, withArg_refusesCleanly fun _ => ifOwner_refusesCleanly (done_refusesCleanly _)⟩
  case flushQueue | flushCapture =>
    exact ⟨_, rfl, withArg_refusesCleanly fun _ => ifOwner_refusesCleanly (doneWith_refusesCleanly _ _)⟩
  case releaseSeat | powerOn | powerOff | start | stopSeat | resume | abortStep | setShadow =>
    exact ⟨_, rfl, withArg_refusesCleanly fun _ => ifOwner_refusesCleanly
      (require_refusesCleanly (done_refusesCleanly _))⟩
  case unclamp =>
    exact ⟨_, rfl, withArg_refusesCleanly fun _ => ifOwner_refusesCleanly
      (require_refusesCleanly (accepted_refusesCleanly _))⟩
  case clamp =>
    exact ⟨_, rfl, withArg_refusesCleanly fun k => ifOwner_refusesCleanly
      (require_refusesCleanly (require_refusesCleanly (clamp_refusesCleanly k)))⟩
  case queueStep =>
    exact ⟨_, rfl, withArg_refusesCleanly fun _ => ifOwner_refusesCleanly
      (require_refusesCleanly (require_refusesCleanly (doneWith_refusesCleanly _ _)))⟩
  case setOutput | setSerial =>
    exact ⟨_, rfl, withArg_refusesCleanly fun _ => ifOwner_refusesCleanly
      (require_refusesCleanly (require_refusesCleanly (done_refusesCleanly _)))⟩
  case clearFault =>
    exact ⟨_, rfl, withArg_refusesCleanly fun _ => ifOwnerOrFree_refusesCleanly
      (require_refusesCleanly (done_refusesCleanly _))⟩
  case clearResults =>
    exact ⟨_, rfl, withArg_refusesCleanly fun _ => ifOwnerOrFree_refusesCleanly
      (require_refusesCleanly (doneWith_refusesCleanly _ _))⟩

theorem port_answer (s : State) (p : Port) (a : Answer) :
    (s.answer p a).port p = { s.port p with link := .answering a, select := true } := port_setPort_same s p _

/-- Settles O11: a body that refuses leaves the state the answer is given in. -/
theorem refusedCommandHasNoEffect : Obligations.RefusedCommandHasNoEffect := by
  intro c p ps s t a hc h he hlink hok hacc
  obtain ⟨body, hbody, hclean⟩ := exec_call_eq_command hc s
  rw [hbody, command_taken h] at he
  injection he with he
  have ha : body.2 = a := by
    rw [← he, port_answer] at hlink
    injection hlink
  subst ha
  obtain ⟨hstate, hresult⟩ := hclean hok hacc
  exact ⟨by rw [← he, hstate], hresult⟩

end Steps
end Machine
end Sys2Proof
end

section
/-! No command and no event stops the KT36, and an event that is not due changes nothing (R178; log entry 3). -/

namespace Sys2Proof
namespace Machine
namespace Steps

variable {s : State} {p : Port} {ps : List Byte}

/-! ### The commands that do not pass through `command`, and STATUS -/

theorem exec_status_closed (h : s.linkOpen p = false) : exec (.status p ps) s = .next s := by
  change execStatus p ps s = _
  rw [execStatus, h]
  rfl

/-- STATUS on an open link, during the load as well (R188). -/
theorem exec_status_open (h : s.linkOpen p = true) : exec (.status p ps) s =
    if ps = [] then answered (s.setPort p { s.port p with overflow := false }) p .ok (s.statusBytes p)
    else answered s p .badParam [] := by
  change execStatus p ps s = _
  rw [execStatus, h]
  cases ps <;> rfl

theorem exec_unknownCommand (code : Byte) : exec (.unknownCommand p code ps) s =
    if s.linkOpen p then answered s p .unknown [] else .next s := by
  change execUnknownCommand p code ps s = _
  rw [execUnknownCommand]
  cases s.linkOpen p <;> rfl

theorem exec_linkTransactionDiscarded (bytes : List Byte) : exec (.linkTransactionDiscarded p bytes) s =
    if s.linkOpen p then .next (s.setPort p { s.port p with link := .idle, select := false }) else .next s := by
  change execLinkTransactionDiscarded p bytes s = _
  rw [execLinkTransactionDiscarded]
  cases s.linkOpen p <;> rfl

/-! ### Events (log entry 3) -/

theorem whenDue_notDue {due : Bool} (h : due = false) (t : State) : whenDue s due t = .next s := by
  rw [h, whenDue_false]

theorem exec_transmissionComplete_notAwaited {k : Fin 4} {ack : Bool} (h : s.completedSlot k = none) :
    exec (.transmissionComplete k ack) s = .next s := by
  change execTransmissionComplete k ack s = _
  rw [execTransmissionComplete, h]

/-- STORE_END is taken exactly when the timebase has it due (R107). -/
theorem exec_storeEnd_notDue {acc : StoreAccepted} (h : s.storeReady = false) : exec (.storeEnd acc) s = .next s := by
  change execStoreEnd acc s = _
  unfold State.storeReady at h
  unfold execStoreEnd
  split
  · rfl
  · next x hx =>
    rw [hx] at h
    exact whenDue_notDue h _

theorem exec_rackResetRelease_notHeld (h : s.loader.phase ≠ .held) : exec .rackResetRelease s = .next s :=
  whenDue_notDue (decide_eq_false h) _

/-! ### Every command and every event answers a next state -/

theorem command_answersNext (body : State × Answer) : ∃ t, command p s body = .next t := by
  cases ho : s.linkOpen p with
  | false => exact ⟨s, command_closed ho body⟩
  | true =>
    cases hr : s.isReady with
    | false => exact ⟨_, command_notReady ho hr body⟩
    | true => exact ⟨_, command_taken ⟨ho, hr⟩ body⟩

theorem exec_answersNext (c : Instr) (s : State) : ∃ t, exec c s = .next t := by
  cases hc : callOf c with
  | some x =>
    obtain ⟨body, hbody, -⟩ := exec_call_eq_command hc s
    rw [hbody]
    exact command_answersNext body
  | none =>
    cases c with
    | status p ps =>
      cases ho : s.linkOpen p with
      | false => exact ⟨s, exec_status_closed ho⟩
      | true =>
        rw [exec_status_open ho]
        split <;> exact ⟨_, rfl⟩
    | unknownCommand p code ps =>
      rw [exec_unknownCommand]
      split <;> exact ⟨_, rfl⟩
    | linkTransactionDiscarded p bytes =>
      rw [exec_linkTransactionDiscarded]
      split <;> exact ⟨_, rfl⟩
    | portResetInput p =>
      change ∃ t, execPortResetInput p s = _
      unfold execPortResetInput
      split <;> exact ⟨_, rfl⟩
    | transmissionComplete k ack =>
      change ∃ t, execTransmissionComplete k ack s = _
      unfold execTransmissionComplete
      split <;> exact ⟨_, rfl⟩
    | storeEnd acc =>
      change ∃ t, execStoreEnd acc s = _
      unfold execStoreEnd
      split <;> exact ⟨_, rfl⟩
    | portResetRelease | sensorRawChange | presentLevelChange | confirmLevelChange | tripLevelChange
    | clampTimerExpiry | unclampTimerExpiry | windowExpiry | timerTrigger | channelMove | frameSlotDue | frameReceived
    | gateTimeReached | slotDue | conversionComplete | keyRawChange | keyPress | stopKeyPress | coldReset | loadEnd
    | rackResetRelease | keyRelease => exact ⟨_, rfl⟩
    | _ => cases hc

/-- Settles O3: commands by `exec_answersNext`, events by their due conditions. -/
theorem everyCommandAnswersNext : Obligations.EveryCommandAnswersNext := by
  refine ⟨exec_answersNext, fun s => ?_⟩
  exact ⟨fun _ h => whenDue_notDue h _, fun _ h => whenDue_notDue h _, fun _ h => whenDue_notDue h _,
    fun _ h => whenDue_notDue h _, fun _ h => whenDue_notDue h _, fun _ h => whenDue_notDue h _,
    fun _ h => whenDue_notDue h _, fun _ h => whenDue_notDue h _, fun _ _ h => whenDue_notDue h _,
    fun _ _ h => exec_transmissionComplete_notAwaited h, fun _ h => whenDue_notDue h _, fun _ h => whenDue_notDue h _,
    fun _ h => whenDue_notDue h _, fun _ h => exec_storeEnd_notDue h, fun _ _ h => whenDue_notDue h _,
    fun _ h => whenDue_notDue h _, fun h => whenDue_notDue h _, fun _ h => whenDue_notDue h _,
    exec_rackResetRelease_notHeld⟩

end Steps
end Machine
end Sys2Proof
end

section
/-! What a port does not take, and the bytes it sends in a transaction (R175 to R179, R189, R190). -/

namespace Sys2Proof
namespace Machine
namespace Steps

variable {s : State} {p : Port} {ps : List Byte} {c : Instr}

theorem exec_call_closed (hc : callOf c = some (p, ps)) (h : s.linkOpen p = false) : exec c s = .next s := by
  obtain ⟨body, hbody, -⟩ := exec_call_eq_command hc s
  rw [hbody, command_closed h]

theorem exec_call_notReady (hc : callOf c = some (p, ps)) (ho : s.linkOpen p = true) (hr : s.isReady = false) :
    exec c s = answered s p .notReady [] := by
  obtain ⟨body, hbody, -⟩ := exec_call_eq_command hc s
  rw [hbody, command_notReady ho hr]

/-! ### The bytes of a transaction (R176) -/

theorem transactionByte_before {lp n : Nat} (a : Answer) (h : n < 5 + lp) : transactionByte lp a n = 0 := if_pos h

/-- From position 5 + Lp on the bytes are those of the answer, and 00h past its end. -/
theorem transactionByte_answer (lp : Nat) (a : Answer) (i : Nat) :
    transactionByte lp a (5 + lp + i) = a.bytes.getD i 0 := by
  rw [transactionByte, if_neg (by omega), Nat.add_sub_cancel_left]

theorem transactionByte_status (lp : Nat) (a : Answer) : transactionByte lp a (5 + lp) = a.status.code :=
  transactionByte_answer lp a 0

theorem transactionByte_length (lp : Nat) (a : Answer) :
    word16 (transactionByte lp a (6 + lp)) (transactionByte lp a (7 + lp)) = BitVec.ofNat 16 a.result.length := by
  rw [show 6 + lp = 5 + lp + 1 by omega, show 7 + lp = 5 + lp + 2 by omega, transactionByte_answer,
    transactionByte_answer]
  exact word16_bytes _

theorem transactionByte_result (lp : Nat) (a : Answer) (i : Nat) :
    transactionByte lp a (8 + lp + i) = a.result.getD i 0 := by
  rw [show 8 + lp + i = 5 + lp + (i + 3) by omega, transactionByte_answer]
  rfl

/-- Settles O10: the checks of every command, the two transactions that are no command, and the bytes by position. -/
theorem untakenTransactionsHaveNoEffect : Obligations.UntakenTransactionsHaveNoEffect := by
  refine ⟨fun c p ps s => ⟨?_, exec_call_notReady⟩, fun p s ho => ⟨fun code ps => ?_, fun bytes => ?_⟩,
    fun p s hclosed => ⟨fun code ps => ?_, fun bytes => ?_⟩, fun p s a => port_answer s p a,
    fun lp a n _ => ⟨transactionByte_before a, transactionByte_status lp a, transactionByte_length lp a,
      transactionByte_result lp a⟩⟩
  · rintro (hc | rfl) hclosed
    · exact exec_call_closed hc hclosed
    · exact exec_status_closed hclosed
  · rw [exec_unknownCommand, if_pos ho]
  · rw [exec_linkTransactionDiscarded, if_pos ho]
  · rw [exec_unknownCommand, hclosed]
    rfl
  · rw [exec_linkTransactionDiscarded, hclosed]
    rfl

end Steps
end Machine
end Sys2Proof
end

section
/-! A port's own commands and its notices: STATUS and READ_NOTICE (R185, R188), SET_NOTICE_LEVEL and SET_THRESHOLD
(R187), and the posting of a notice (R183, R184, R186). -/

namespace Sys2Proof
namespace Machine
namespace Steps

variable {s : State} {p : Port}

/-! ### The bytes of STATUS and of a notice (R183, R188) -/

theorem sourceBytes_eq (o : Option ConfigSource) : eOpt 1 (fun c : ConfigSource => e8 c.code) o =
    match o with
    | none => [0, 0]
    | some .eeprom => [1, 0]
    | some .defaults => [1, 1] := by
  rcases o with _ | _ | _ <;> rfl

theorem e8_portCode (p : Port) : e8 (portCode p) = [match p with
    | .a => 0
    | .b => 1] := by cases p <;> rfl

theorem e8_attnCode (b : Bool) : e8 (attnCode b) = [if b then 0 else 1] := by cases b <;> rfl

theorem e8_ready (s : State) : e8 (if s.isReady then 1 else 0) = [if s.isReady then (1 : Byte) else 0] := by
  cases s.isReady <;> rfl

theorem portStatusBytes_eq (s : State) (p : Port) : s.statusBytes p =
    [if s.isReady then (1 : Byte) else 0] ++
      (match s.loader.source with
       | none => [0, 0]
       | some .eeprom => [1, 0]
       | some .defaults => [1, 1]) ++
      [match p with
       | .a => 0
       | .b => 1,
       if (s.port p).overflow then 1 else 0, byteOf (s.port p).queue.length,
       if (s.port p).attn then 0 else 1, byteOf (s.port p).threshold.val] ++
      (s.port p).levels.toList.map (fun l => byteOf l.val) ++
      bytes16 s.now.toNat ++ bytes16 (s.now.toNat / 65536) := by
  have hlevels : (s.port p).levels.toList.flatMap (fun l => e8 l.val) =
      (s.port p).levels.toList.map (fun l => byteOf l.val) := List.map_eq_flatMap.symm
  rw [State.statusBytes, e8_ready, e8_portCode, e8_attnCode, sourceBytes_eq, eFlag_eq, hlevels, e32_eq, bytes32, e8_eq,
    e8_eq]
  simp only [List.append_assoc, List.cons_append, List.nil_append]

theorem noticeKindByte_eq (x : NoticeKind) : e8 x.index.val = [match x with
    | .stepDone => 0
    | .seatState => 1
    | .fault => 2
    | .key => 3
    | .mark => 4
    | .storeDone => 5
    | .config => 6] := by cases x <;> rfl

theorem eOpt_two_eq {α : Type} (code : α → Nat) (o : Option α) :
    eOpt 2 (fun x => e16 (code x)) o = optional2 (o.map code) := by
  cases o <;> rfl

theorem eNotice_eq (n : Notice) : eNotice n =
    [match n.kind with
     | .stepDone => 0
     | .seatState => 1
     | .fault => 2
     | .key => 3
     | .mark => 4
     | .storeDone => 5
     | .config => 6,
     byteOf n.level.val] ++
    optional1 (n.seat.map (·.val)) ++ optional2 (n.stepId.map (·.toNat)) ++ [n.code] ++ optional1 n.count ++
    bytes32 n.time.toNat := by
  have hcount : eOpt 1 e8 n.count = optional1 n.count := by cases n.count <;> rfl
  rw [eNotice, noticeKindByte_eq, eOpt_one_eq, eOpt_two_eq, hcount, e8_eq, e32_eq]
  rfl

theorem optional1_length (o : Option Nat) : (optional1 o).length = 2 := by cases o <;> rfl

theorem optional2_length (o : Option Nat) : (optional2 o).length = 3 := by cases o <;> rfl

theorem eNotice_length (n : Notice) : (eNotice n).length = 14 := by
  rw [eNotice_eq]
  simp only [List.length_append, optional1_length, optional2_length]
  rfl

/-! ### READ_NOTICE (R185) -/

theorem exec_readNotice (h : s.takes p) :
    exec (.readNotice p []) s = answered (s.setPort p (s.port p).pop) p .ok (s.port p).noticeBytes :=
  command_taken_pair h _ _ _

theorem pop_empty {r : PortRecord} (h : r.queue = []) : r.pop = { r with attn := false } := by
  cases r
  cases h
  rfl

theorem pop_oldest {r : PortRecord} {n : Notice} {rest : List Notice} (h : r.queue = n :: rest) :
    r.pop = { r with queue := rest, attn := judgeAttn rest r.threshold } := by
  rw [PortRecord.pop, h]
  rfl

theorem noticeBytes_empty {r : PortRecord} (h : r.queue = []) : r.noticeBytes = [0] ++ zeros 14 ++ [0] := by
  rw [PortRecord.noticeBytes, h]
  rfl

theorem noticeBytes_oldest {r : PortRecord} {n : Notice} {rest : List Notice} (h : r.queue = n :: rest) :
    r.noticeBytes = [1] ++ eNotice n ++ [byteOf rest.length] := by
  rw [PortRecord.noticeBytes, h]
  rfl

/-- Settles O14: the commands by their meanings, the records by their bytes. -/
theorem statusAndReadNotice : Obligations.StatusAndReadNotice := by
  refine ⟨fun p s ho => ⟨?_, fun ps hps => ?_⟩, fun p s h => ⟨fun hq => ?_, fun n rest hq => ?_⟩, eNotice_eq⟩
  · exact ((exec_status_open ho).trans (if_pos rfl)).trans (congrArg (answered _ p .ok) (portStatusBytes_eq s p))
  · rw [exec_status_open ho, if_neg hps]
  · rw [exec_readNotice h, pop_empty hq, noticeBytes_empty hq]
  · refine ⟨judgeAttn rest (s.port p).threshold, ?_, judgeAttn_iff _ _, eNotice_length n⟩
    rw [exec_readNotice h, pop_oldest hq, noticeBytes_oldest hq]

/-! ### SET_NOTICE_LEVEL and SET_THRESHOLD (R187) -/

theorem exec_setNoticeLevel (h : s.takes p) (kind : Fin 7) (level : Fin 16) :
    exec (.setNoticeLevel p [byteOf kind.val, byteOf level.val]) s =
      answered (s.setPort p { s.port p with levels := (s.port p).levels.set kind level }) p .ok [] := by
  change command p s (withArg s (indexPairArg 7 16 _) _) = _
  rw [indexPairArg_byteOf (by decide) (by decide), withArg_some]
  exact command_taken_pair h _ _ _

theorem indexPairArg_none {n m : Nat} {b c : Byte} (h : n ≤ b.toNat ∨ m ≤ c.toNat) : indexPairArg n m [b, c] = none := by
  refine Option.not_isSome_iff_eq_none.mp fun hread => ?_
  obtain ⟨-, hb, hc, -⟩ := indexPairArg_shape hread
  omega

theorem exec_setNoticeLevel_badParam (h : s.takes p) {b c : Byte} (hbc : 7 ≤ b.toNat ∨ 16 ≤ c.toNat) :
    exec (.setNoticeLevel p [b, c]) s = answered s p .badParam [] :=
  exec_misread rfl h (by rw [operandsRead, indexPairArg_none hbc, Option.isSome_none])

theorem exec_setThreshold (h : s.takes p) (th : Fin 16) : exec (.setThreshold p [byteOf th.val]) s =
    answered (s.setPort p { s.port p with threshold := th, attn := judgeAttn (s.port p).queue th }) p .ok [] := by
  change command p s (withArg s (indexArg 16 _) _) = _
  rw [indexArg_byteOf (by decide), withArg_some]
  exact command_taken_pair h _ _ _

theorem exec_setThreshold_badParam (h : s.takes p) {b : Byte} (hb : 16 ≤ b.toNat) :
    exec (.setThreshold p [b]) s = answered s p .badParam [] :=
  exec_misread rfl h (by rw [operandsRead, indexArg, finArg_none hb, Option.isSome_none])

/-! ### Levels and threshold through a port reset (R187, R189) -/

/-- The notice levels and the threshold of a port. -/
def noticeSettings (p : Port) (s : State) : Vector (Fin 16) 7 × Fin 16 := ((s.port p).levels, (s.port p).threshold)

theorem post_settings (r : PortRecord) (n : Notice) :
    (r.post n).levels = r.levels ∧ (r.post n).threshold = r.threshold := by
  unfold PortRecord.post
  dsimp only
  split
  · exact ⟨rfl, rfl⟩
  · split <;> exact ⟨rfl, rfl⟩

theorem posted_settings {r q : PortRecord} (h : Posted r q) : q.levels = r.levels ∧ q.threshold = r.threshold := by
  induction h with
  | refl => exact ⟨rfl, rfl⟩
  | tail _ hstep ih =>
    obtain ⟨n, rfl⟩ := hstep
    obtain ⟨hlevels, hthreshold⟩ := post_settings _ n
    exact ⟨hlevels.trans ih.1, hthreshold.trans ih.2⟩

/-- The sequencer posts notices, which sets no level and no threshold. -/
theorem works_noticeSettings {T : Fin 4 → Prop} {t : State} (w : Works T s t) (p : Port) :
    noticeSettings p t = noticeSettings p s := by
  obtain ⟨hlevels, hthreshold⟩ := posted_settings (w.ports p)
  exact Prod.ext hlevels hthreshold

theorem resetSeat_noticeSettings (s : State) (k : Fin 4) (p : Port) :
    noticeSettings p (resetSeat s k) = noticeSettings p s := by
  unfold resetSeat
  dsimp only
  split
  · exact works_noticeSettings (s := s.setRecord k _) (works_haltSeat (T := fun _ => True) k .portReset trivial) p
  · rfl

theorem dropGrants_noticeSettings (s : State) (q p : Port) : noticeSettings p (s.dropGrants q) = noticeSettings p s :=
  List.foldlRecOn regionIds _ (motive := fun t => noticeSettings p t = noticeSettings p s) rfl fun _ ht _ _ => ht

theorem portReset_noticeSettings (s : State) (p : Port) :
    noticeSettings p (s.portReset p) = (#v[4, 6, 12, 3, 2, 5, 8], 0) := by
  unfold State.portReset
  rw [dropGrants_noticeSettings, works_noticeSettings (works_arbitrate (T := fun _ => True) fun _ _ => trivial),
    takeInOpenOrder_keeps (view := noticeSettings p) (fun u k => resetSeat_noticeSettings u k p) (fun _ _ => rfl)]
  cases p <;> rfl

theorem coldReset_noticeSettings (s : State) (acc : StoreAccepted) (p : Port) :
    noticeSettings p (s.coldReset acc) = (#v[4, 6, 12, 3, 2, 5, 8], 0) := by cases p <;> rfl

/-- Settles O15: the two commands by their operands, the two resets by what each leaves of the port. -/
theorem noticeLevelsAndThreshold : Obligations.NoticeLevelsAndThreshold := by
  refine ⟨fun p s h => ⟨exec_setNoticeLevel h, fun b c => exec_setNoticeLevel_badParam h,
    fun th => ⟨_, exec_setThreshold h th, judgeAttn_iff _ _⟩, fun b => exec_setThreshold_badParam h⟩, fun p s acc => ?_⟩
  obtain ⟨hcoldLevels, hcoldThreshold⟩ := Prod.mk.inj (coldReset_noticeSettings s acc p)
  obtain ⟨hlevels, hthreshold⟩ := Prod.mk.inj (portReset_noticeSettings s p)
  exact ⟨hcoldLevels, hcoldThreshold, hlevels, hthreshold⟩

/-! ### Posting (R183, R184, R186) -/

theorem post_suppressed {r : PortRecord} {n : Notice} (h : r.levels[n.kind.index] = 0) : r.post n = r := if_pos h

theorem post_queued {r : PortRecord} {n : Notice} (h : r.levels[n.kind.index] ≠ 0) (hq : r.queue.length < 32) :
    r.post n = { r with
      queue := r.queue ++ [{ n with level := r.levels[n.kind.index] }],
      attn := judgeAttn (r.queue ++ [{ n with level := r.levels[n.kind.index] }]) r.threshold } :=
  (if_neg h).trans (if_pos hq)

theorem post_discarded {r : PortRecord} {n : Notice} (h : r.levels[n.kind.index] ≠ 0) (hq : 32 ≤ r.queue.length) :
    r.post n = { r with overflow := true, attn := judgeAttn r.queue r.threshold } :=
  (if_neg h).trans (if_neg (Nat.not_lt.mpr hq))

theorem postSeat_owned {k : Fin 4} (h : (s.record k).owner = some p) (n : Notice) :
    s.postSeat k n = s.setPort p ((s.port p).post n) := by
  rw [State.postSeat, h]
  rfl

theorem postSeat_unowned {k : Fin 4} (h : (s.record k).owner = none) (n : Notice) :
    s.postSeat k n = (s.setPort .a ((s.port .a).post n)).setPort .b ((s.port .b).post n) := by
  rw [State.postSeat, h]
  rfl

/-- Settles O16: a posting by the port's level and the room in its queue, a seat notice by the seat's owner. -/
theorem postingANotice : Obligations.PostingANotice :=
  ⟨fun _ _ => ⟨post_suppressed, fun h hq => ⟨_, post_queued h hq, judgeAttn_iff _ _⟩,
    fun h hq => ⟨_, post_discarded h hq, judgeAttn_iff _ _⟩⟩,
   fun _ _ n => ⟨fun _ h => postSeat_owned h n, fun h => postSeat_unowned h n⟩⟩

end Steps
end Machine
end Sys2Proof
end

section
/-! The state after reset meets every law the steps keep (R1, R2, R22, R175, R190). -/

namespace Sys2Proof
namespace Machine
namespace Steps

/-! ### The records of the reset state -/

theorem reset_seat (k : Fin 4) : State.reset.seat k = Seat.reset := Vector.getElem_replicate ..

theorem reset_record (k : Fin 4) : State.reset.record k = SeatRecord.reset := congrArg Seat.record (reset_seat k)

theorem reset_port (p : Port) : State.reset.port p = PortRecord.reset := by cases p <;> rfl

theorem reset_channel (c : Fin 8) : State.reset.channel c = Channel.free := Vector.getElem_replicate ..

theorem reset_slot (m : Fin 6) : State.reset.slot m = MeasSlot.free := Vector.getElem_replicate ..

theorem reset_program (i : Fin 48) : State.reset.program i = { program := none, uses := 0 } := Vector.getElem_replicate ..

theorem reset_limit (i : Fin 256) : State.reset.limit i = { limit := none, uses := 0 } := Vector.getElem_replicate ..

/-! ### The laws -/

theorem reset_memoriesCanonical : State.reset.MemoriesCanonical := ⟨Memory.wf_nil, Memory.wf_nil, Memory.wf_nil⟩

/-- A VACANT seat with its outputs at rest, no cause and no deadline (R2, R22). -/
theorem reset_seatsLawful : State.reset.SeatsLawful := fun k => by
  rw [reset_record]
  exact ⟨rfl, fun _ => rfl, fun _ => rfl, (fun h => nomatch h), rfl⟩

theorem reset_seatsHeld : State.reset.SeatsHeld where
  closed k h := by
    rw [reset_record] at h
    cases h
  owned k h := by
    rw [reset_record] at h
    cases h

/-- An empty queue, ATTN released and an IDLE link (R175). -/
theorem reset_portsLawful : State.reset.PortsLawful := fun p => by
  rw [reset_port]
  exact ⟨Nat.zero_le _, List.forall_mem_nil _, judgeAttn_iff [] 0, fun _ => rfl⟩

theorem reset_saverLawful : State.reset.SaverLawful := by
  unfold State.SaverLawful
  decide

theorem reset_programsCounted : State.reset.ProgramsCounted where
  free c _ := by
    rw [reset_channel]
    rfl
  uses i := by simp [reset_program, State.running, reset_channel, Channel.free]

theorem reset_limitsCounted : State.reset.LimitsCounted where
  free m _ := by
    rw [reset_slot]
    rfl
  uses i := by simp [reset_limit, State.judging, reset_slot, MeasSlot.free]

theorem reset_listsBounded : State.reset.ListsBounded := fun k => by
  rw [reset_seat]
  exact ⟨Nat.zero_le _, Nat.zero_le _, Nat.zero_le _, iff_of_true rfl rfl⟩

theorem reset_stepsLawful : State.reset.StepsLawful where
  runs k h := by
    rw [reset_seat] at h
    cases h
  waits := List.forall_mem_nil _
  idle := List.forall_mem_nil _
  once := List.nodup_nil
  vacant _ k := by
    rw [reset_record]
    rfl

/-- Settles O8, law by law. -/
theorem resetStateIsLawful : Obligations.ResetStateIsLawful :=
  ⟨reset_memoriesCanonical, reset_seatsLawful, reset_seatsHeld, reset_portsLawful, reset_saverLawful,
    reset_programsCounted, reset_limitsCounted, reset_listsBounded, reset_stepsLawful⟩

end Steps
end Machine
end Sys2Proof
end

section
/-! A step with a command waiting: the front of the queue is taken, and the timebase stands still (log entry 1). -/

namespace Sys2Proof
namespace Machine
namespace Steps

variable {s : State} {c : Instr} {rest : List Instr}

/-- Beside `step_notDue` and `step_due`, the step on an empty queue, this is the third thing a step can do. -/
theorem step_front (hp : s.pending = c :: rest) : step s = exec c { s with pending := rest } := by
  simp only [step, hp]

/-- Settles O1: the queue's front is the command put there. -/
theorem stepRunsFrontCommand : Obligations.StepRunsFrontCommand := fun c rest s =>
  step_front (s := { s with pending := c :: rest }) rfl

end Steps
end Machine
end Sys2Proof
end

section
/-! What the last stages of an event and the ends of steps do to the lifecycle of the seats (R22, R24, R28 to R31): the
sequencer keeps its own law, and of itself it moves seats only out of TESTING. `Calm` says both. -/

namespace Sys2Proof
namespace Machine
namespace Steps

variable {s t u : State} {k : Fin 4}

/-! ### Calm work -/

/-- No seat comes to TESTING, and none to a state whose confirm level is CLOSED from one where it may be open. -/
def Lowered (s t : State) : Prop := ∀ k, ((t.record k).state = .testing → (s.record k).state = .testing) ∧
  ((t.record k).state.confirmed = true → (s.record k).state.confirmed = true)

theorem Lowered.refl (s : State) : Lowered s s := fun _ => ⟨id, id⟩

theorem Lowered.trans (h : Lowered s t) (g : Lowered t u) : Lowered s u := fun k =>
  ⟨(h k).1 ∘ (g k).1, (h k).2 ∘ (g k).2⟩

/-- From a lawful state the sequencer's law is kept, and seats are only lowered. -/
def Calm (s t : State) : Prop := s.StepsLawful → t.StepsLawful ∧ Lowered s t

theorem Calm.refl (s : State) : Calm s s := fun h => ⟨h, .refl s⟩

theorem Calm.trans (h : Calm s t) (g : Calm t u) : Calm s u := fun hs =>
  have ⟨ht, hst⟩ := h hs
  have ⟨hu, htu⟩ := g ht
  ⟨hu, hst.trans htu⟩

theorem calm_ite {c : Prop} [Decidable c] (ht : c → Calm s t) (hu : ¬ c → Calm s u) :
    Calm s (if c then t else u) := by
  split
  · exact ht ‹_›
  · exact hu ‹_›

/-- What the sequencer's law speaks of stays: the states, whether a step runs, the wait list and the loader. -/
theorem calm_of_same (hstate : ∀ j, (t.record j).state = (s.record j).state)
    (hrun : ∀ j, (t.seat j).running.isSome = (s.seat j).running.isSome) (hwait : t.waitList = s.waitList)
    (hready : t.isReady = s.isReady) : Calm s t := fun h => by
  have hnone : ∀ j, (s.seat j).running = none → (t.seat j).running = none := fun j hj =>
    Option.isNone_iff_eq_none.mp (by rw [← Option.not_isSome, hrun j, hj]; rfl)
  refine ⟨⟨fun j hj => ?_, fun j hj => ?_, fun j hj => ?_, ?_, fun hr j => ?_⟩, fun j => ?_⟩
  · rw [hstate]; exact h.runs j (hrun j ▸ hj)
  · rw [hstate]; exact h.waits j (hwait ▸ hj)
  · exact hnone j (h.idle j (hwait ▸ hj))
  · rw [hwait]; exact h.once
  · rw [hstate]; exact h.vacant (hready ▸ hr) j
  · rw [hstate]; exact ⟨id, id⟩

theorem works_isReady {T : Fin 4 → Prop} (w : Works T s t) : t.isReady = s.isReady := by
  unfold State.isReady
  rw [w.loader]

/-- Work that reaches no seat and leaves the wait list. -/
theorem calm_of_untouched (w : Works (fun _ => False) s t) (hwait : t.waitList = s.waitList) : Calm s t :=
  calm_of_same (fun j => congrArg SeatRecord.state (w.othersRecord j id))
    (fun j => congrArg Option.isSome (w.othersRunning j id)) hwait (works_isReady w)

/-- Work on a seat that stays in TESTING without waiting, whatever becomes of its running step. -/
theorem calm_of_testing (w : Works (· = k) s t) (hk : (s.record k).state = .testing) (hkw : k ∉ s.waitList)
    (hstate : (t.record k).state = (s.record k).state) (hwait : t.waitList = s.waitList) : Calm s t := fun h => by
  have hstates : ∀ j, (t.record j).state = (s.record j).state := fun j => by
    by_cases hj : j = k
    · exact hj ▸ hstate
    · rw [w.othersRecord j hj]
  refine ⟨⟨fun j hj => ?_, fun j hj => ?_, fun j hj => ?_, ?_, fun hr j => ?_⟩, fun j => ?_⟩
  · by_cases hjk : j = k
    · rw [hjk, hstate, hk]
    · rw [hstates]; exact h.runs j (w.othersRunning j hjk ▸ hj)
  · rw [hstates]; exact h.waits j (hwait ▸ hj)
  · have hjw : j ∈ s.waitList := hwait ▸ hj
    have hjk : j ≠ k := fun e => hkw (e ▸ hjw)
    rw [w.othersRunning j hjk]; exact h.idle j hjw
  · rw [hwait]; exact h.once
  · rw [hstates]; exact h.vacant (works_isReady w ▸ hr) j
  · rw [hstates]; exact ⟨id, id⟩

/-- Work on a seat that leaves TESTING and the wait list without a running step. -/
theorem calm_of_left (w : Works (· = k) s t) (hk : (s.record k).state = .testing) (hrun : (t.seat k).running = none)
    (hstate : (t.record k).state ≠ .testing) (hwait : t.waitList = s.waitList.filter (· != k)) : Calm s t :=
  fun h => by
  have hmem : ∀ j ∈ t.waitList, j ∈ s.waitList ∧ j ≠ k := fun j hj => by
    rw [hwait, List.mem_filter] at hj
    simpa using hj
  refine ⟨⟨fun j hj => ?_, fun j hj => ?_, fun j hj => ?_, ?_, fun hr j => ?_⟩, fun j => ?_⟩
  · by_cases hjk : j = k
    · rw [hjk, hrun] at hj; cases hj
    · rw [w.othersRecord j hjk]; exact h.runs j (w.othersRunning j hjk ▸ hj)
  · obtain ⟨hjw, hjk⟩ := hmem j hj
    rw [w.othersRecord j hjk]; exact h.waits j hjw
  · obtain ⟨hjw, hjk⟩ := hmem j hj
    rw [w.othersRunning j hjk]; exact h.idle j hjw
  · rw [hwait]; exact h.once.filter _
  · have hvacant := h.vacant (works_isReady w ▸ hr) k
    rw [hk] at hvacant
    cases hvacant
  · by_cases hjk : j = k
    · exact hjk ▸ ⟨fun he => absurd he hstate, fun _ => hk ▸ rfl⟩
    · rw [w.othersRecord j hjk]; exact ⟨id, id⟩

/-! ### The end and the abort of a step (R39 to R41, R44) -/

theorem abortRunning_running (k : Fin 4) (c : Cause) : ((s.abortRunning k c).seat k).running = none := by
  cases hr : (s.seat k).running with
  | none => simp only [State.abortRunning, hr]
  | some r => exact (abortRunning_seat hr).2.2.1

theorem abortRunning_calm (hk : (s.record k).state = .testing) (hkw : k ∉ s.waitList) (c : Cause) :
    Calm s (s.abortRunning k c) :=
  calm_of_testing (works_abortRunning k c rfl) hk hkw (abortRunning_state c) (abortRunning_waitList k c)

theorem leaveFor_calm (hk : (s.record k).state = .testing) (hrun : (s.seat k).running = none) {st : SeatState}
    (hst : st ≠ .testing) (hf : st ≠ .fault) (ht : st.timed = false) (n : Option Nat) : Calm s (s.leaveFor k st n) :=
  calm_of_left (works_leaveFor k st n rfl hf ht) hk ((leaveFor_seat st n).2.2.1.trans hrun)
    (leaveFor_not_testing hst n) (leaveFor_waitList st n)

theorem setQueue_calm (k : Fin 4) (q : List Step) : Calm s (s.setQueue k q) :=
  calm_of_same (by simp) (by simp) (by simp) (by simp)

/-- The fail policy and the return to POWERED, after the step of seat `k` has ended (R41). -/
theorem settle_calm (hk : (s.record k).state = .testing) (hrun : (s.seat k).running = none) (o : StepOutcome)
    (p : FailPolicy) : Calm s (s.settle k o p) := by
  unfold State.settle
  split
  · exact (setQueue_calm k []).trans
      (leaveFor_calm (by simpa using hk) (by simpa using hrun) (by decide) (by decide) rfl _)
  · exact calm_ite (fun _ => leaveFor_calm hk hrun (by decide) (by decide) rfl _) fun _ => .refl s

/-- Seat `k` in TESTING is halted: its step, if one runs, is aborted, and it leaves for HOLD (R18). -/
theorem haltSeat_calm (hk : (s.record k).state = .testing) (c : Cause) : Calm s (s.haltSeat k c) := by
  refine calm_of_left (works_haltSeat k c rfl) hk ?_ (haltSeat_not_testing s k c) ?_
  · exact (leaveFor_seat _ _).2.2.1.trans (abortRunning_running k c)
  · rw [State.haltSeat, leaveFor_waitList, abortRunning_waitList]

/-! ### Starts (R28, R31, R32) -/

/-- A step that ended at its own start runs no more (R32, R33, R35). -/
theorem startTaken_ended {st : Step} (h : (s.startTaken k st).2 = true) :
    ((s.startTaken k st).1.seat k).running = none := by
  revert h
  unfold State.startTaken
  split
  · exact fun _ => abortRunning_running k _
  · split
    · exact fun _ => abortRunning_running k _
    · dsimp only
      split
      · exact fun _ => abortRunning_running k _
      · exact fun h => nomatch h

theorem startHead_calm (hk : (s.record k).state = .testing) (hkw : k ∉ s.waitList) : Calm s (s.startHead k).1 := by
  unfold State.startHead
  split
  · exact .refl s
  · next st rest hq =>
    obtain ⟨hrec, -, -, -, -, -, -, hwait, -, -⟩ := takeHead_keeps (s := s) k st rest
    have hstate : (((s.takeHead k st rest).startTaken k st).1.record k).state = (s.record k).state := by
      rw [startTaken_state, hrec]
    have hstarted : Calm s ((s.takeHead k st rest).startTaken k st).1 :=
      calm_of_testing (Works.trans (T := (· = k)) (works_takeHead k st rest hq rfl) (works_startTaken k st rfl)) hk
        hkw hstate ((startTaken_waitList k st).trans hwait)
    dsimp only
    split
    · next hended => exact hstarted.trans (settle_calm (hstate.trans hk) (startTaken_ended hended) _ _)
    · exact hstarted

/-- The oldest waiting seat leaves the wait list (R31). -/
theorem popWait_calm {ws : List (Fin 4)} (h : s.waitList = k :: ws) : Calm s { s with waitList := ws } := fun hs => by
  have hsub : ∀ j ∈ ws, j ∈ s.waitList := fun j hj => h ▸ List.mem_cons_of_mem k hj
  refine ⟨⟨hs.runs, fun j hj => hs.waits j (hsub j hj), fun j hj => hs.idle j (hsub j hj), ?_, hs.vacant⟩, .refl s⟩
  exact (List.nodup_cons.mp (h ▸ hs.once)).2

/-- A seat to be considered joins the wait list (R28, R30). -/
theorem joinWait_calm (h : s.considerable k = true) : Calm s (s.joinWait k) := fun hs => by
  obtain ⟨hk, hrun, hkw, -⟩ := (considerable_iff s k).mp h
  have hmem : ∀ j ∈ (s.joinWait k).waitList, j ∈ s.waitList ∨ j = k := fun j hj => by
    simpa [State.joinWait] using hj
  refine ⟨⟨hs.runs, fun j hj => ?_, fun j hj => ?_, ?_, hs.vacant⟩, .refl s⟩
  · rcases hmem j hj with hj | rfl
    · exact hs.waits j hj
    · exact hk
  · rcases hmem j hj with hj | rfl
    · exact hs.idle j hj
    · exact hrun
  · exact List.nodup_append.mpr ⟨hs.once, List.nodup_singleton k, fun a ha b hb e =>
      hkw (List.mem_singleton.mp hb ▸ e ▸ ha)⟩

/-- The last stages of an event: a seat that waits or is considered is in TESTING without a running step. -/
theorem runTasks_calm (n : Nat) (ts : List Task) (s : State) : Calm s (s.runTasks n ts) := by
  induction n generalizing s ts with
  | zero => exact .refl s
  | succ n ih =>
    match ts with
    | [] => exact .refl s
    | .arbiter :: ts =>
      unfold State.runTasks
      split
      · exact ih _ _
      · next k ws h =>
        refine calm_ite (fun _ hs => ?_) fun _ => ih _ _
        have hk : (s.record k).state = .testing := hs.waits k (h ▸ List.mem_cons_self)
        have hkw : k ∉ ws := (List.nodup_cons.mp (h ▸ hs.once)).1
        exact ((popWait_calm h).trans ((startHead_calm (s := { s with waitList := ws }) hk hkw).trans (ih _ _))) hs
    | .consider k :: ts =>
      unfold State.runTasks
      refine calm_ite (fun h => ?_) fun _ => ih _ _
      obtain ⟨hk, -, hkw, -⟩ := (considerable_iff s k).mp h
      exact calm_ite (fun _ => (startHead_calm hk hkw).trans (ih _ _)) fun _ => (joinWait_calm h).trans (ih _ _)

theorem sequence_calm (ts : List Task) : Calm s (s.sequence ts) := runTasks_calm _ ts s

theorem arbitrate_calm : Calm s s.arbitrate := sequence_calm _

/-! ### What ends a running step (R36, R37, R43, R83) -/

/-- A running step's seat is in TESTING and does not wait. -/
theorem running_place (h : s.StepsLawful) {r : Running} (hr : (s.seat k).running = some r) :
    (s.record k).state = .testing ∧ k ∉ s.waitList := by
  refine ⟨h.runs k (hr ▸ rfl), fun hk => ?_⟩
  have hnone := h.idle k hk
  rw [hr] at hnone
  cases hnone

theorem finishStep_calm {r0 : Running} (hr : (s.seat k).running = some r0) (r : Running) : Calm s (s.finishStep k r) :=
  fun hs => by
  obtain ⟨hk, hkw⟩ := running_place hs hr
  obtain ⟨hrec, -, hrun, -⟩ := endStep_seat (s := s) (k := k) r
  have hended : Calm s (s.endStep k r) :=
    calm_of_testing (works_endStep k r rfl) hk hkw (congrArg SeatRecord.state hrec) (endStep_waitList r)
  exact (hended.trans ((settle_calm (by rw [hrec]; exact hk) hrun _ _).trans (sequence_calm _))) hs

theorem afterReport_calm {r0 : Running} (hr : (s.seat k).running = some r0) (r : Running) :
    Calm s (s.afterReport k r) := by
  have hstored : Calm s (s.setRunning k (some r)) := calm_of_same (by simp) (fun j => by
    by_cases hj : j = k
    · subst hj; simp [hr]
    · simp [hj]) (by simp) (by simp)
  exact calm_ite (fun _ => hstored.trans (finishStep_calm (r0 := r) (by simp) r)) fun _ => hstored

theorem deliverMeas_calm (k : Fin 4) (i : Fin 2) (m : MeasReport) : Calm s (s.deliverMeas k i m) := by
  unfold State.deliverMeas
  split
  · exact .refl s
  · next r hr => exact afterReport_calm hr _

theorem deliverExpect_calm (k : Fin 4) (e : ExpectReport) : Calm s (s.deliverExpect k e) := by
  unfold State.deliverExpect
  split
  · exact .refl s
  · next r hr => exact afterReport_calm hr _

theorem deliverPrompt_calm (k : Fin 4) (p : PromptReport) : Calm s (s.deliverPrompt k p) := by
  unfold State.deliverPrompt
  split
  · exact .refl s
  · next r hr => exact afterReport_calm hr _

theorem expireWindow_calm (k : Fin 4) : Calm s (s.expireWindow k) := by
  unfold State.expireWindow
  split
  · exact .refl s
  · next r hr => exact finishStep_calm hr _

theorem abortByPolicy_calm (k : Fin 4) (c : Cause) : Calm s (s.abortByPolicy k c) := by
  unfold State.abortByPolicy
  split
  · exact .refl s
  · next r hr =>
    intro hs
    obtain ⟨hk, hkw⟩ := running_place hs hr
    exact ((abortRunning_calm hk hkw c).trans
      ((settle_calm ((abortRunning_state c).trans hk) (abortRunning_running k c) _ _).trans (sequence_calm _))) hs

theorem handleRefusal_calm (c : Fin 8) : Calm s (s.handleRefusal c) := by
  unfold State.handleRefusal
  split
  · exact .refl s
  · next k _ =>
    dsimp only
    refine calm_ite (fun _ => ?_) fun _ => abortByPolicy_calm k _
    exact (calm_of_untouched ((works_freeChannel c).trans (works_postSeat k _)) (by simp)).trans arbitrate_calm

theorem takeRefusal_calm {r : State × Bool} (c : Fin 8) (h : Calm s r.1) : Calm s (takeRefusal r c) :=
  calm_ite (fun _ => h.trans (handleRefusal_calm c)) fun _ => h

theorem takeRefusal?_calm {r : State × Option (Fin 8)} (h : Calm s r.1) : Calm s (takeRefusal? r) := by
  unfold takeRefusal?
  split
  · exact h
  · exact h.trans (handleRefusal_calm _)

end Steps
end Machine
end Sys2Proof
end

section
/-! What an operation keeps of the laws of the steps, the seats, the ports, the panel mode and the memories (R1, R2, R11,
R22, R24, R28, R163, R175, R183, R186), said once for all of them by `LawsKept`. -/

namespace Sys2Proof
namespace Machine
namespace Steps

variable {s t u : State} {k : Fin 4} {p : Port}

/-! ### Keeping every law -/

/-- The laws that hold in `s` hold in `t`; the confirm levels and the owners with the help of the sequencer's law. -/
structure LawsKept (s t : State) : Prop where
  memories : s.MemoriesCanonical → t.MemoriesCanonical
  records : s.SeatsLawful → t.SeatsLawful
  ports : s.PortsLawful → t.PortsLawful
  saver : s.SaverLawful → t.SaverLawful
  steps : s.StepsLawful → t.StepsLawful
  held : s.StepsLawful → s.SeatsHeld → t.SeatsHeld

theorem LawsKept.refl (s : State) : LawsKept s s := ⟨id, id, id, id, id, fun _ => id⟩

theorem LawsKept.trans (h : LawsKept s t) (g : LawsKept t u) : LawsKept s u :=
  ⟨g.memories ∘ h.memories, g.records ∘ h.records, g.ports ∘ h.ports, g.saver ∘ h.saver, g.steps ∘ h.steps,
    fun hs hh => g.held (h.steps hs) (h.held hs hh)⟩

theorem lawsKept_ite {c : Prop} [Decidable c] (ht : c → LawsKept s t) (hu : ¬ c → LawsKept s u) :
    LawsKept s (if c then t else u) := by
  split
  · exact ht ‹_›
  · exact hu ‹_›

/-- Seats are lowered, and confirm levels and owners stay where the law needs them. -/
theorem held_of_lowered (hl : Lowered s t)
    (hc : ∀ k, (t.record k).state.confirmed = true → (s.record k).confirm.level = true → (t.record k).confirm.level = true)
    (ho : ∀ k, (t.record k).state = .testing → (t.record k).owner = (s.record k).owner) (h : s.SeatsHeld) :
    t.SeatsHeld where
  closed k hk := hc k hk (h.closed k ((hl k).2 hk))
  owned k hk := by
    rw [ho k hk]
    exact h.owned k ((hl k).1 hk)

theorem works_confirm {T : Fin 4 → Prop} (w : Works T s t) (k : Fin 4) : (t.record k).confirm = (s.record k).confirm :=
  w.sensor k .confirm

/-- Whatever the sequencer does keeps every law, when it keeps the sequencer's own. -/
theorem LawsKept.of_works {T : Fin 4 → Prop} (w : Works T s t) (c : Calm s t) : LawsKept s t where
  memories := w.memoriesCanonical
  records := w.seatsLawful
  ports := w.portsLawful
  saver := w.saverLawful
  steps h := (c h).1
  held hs := held_of_lowered (c hs).2 (fun k _ hk => by rw [works_confirm w]; exact hk) (fun k _ => w.owner k)

theorem LawsKept.works {T : Fin 4 → Prop} (h : LawsKept s t) (w : Works T t u) (c : Calm t u) : LawsKept s u :=
  h.trans (.of_works w c)

/-- Work that reaches no seat and leaves the wait list. -/
theorem LawsKept.of_untouched (w : Works (fun _ => False) s t) (hwait : t.waitList = s.waitList) : LawsKept s t :=
  .of_works w (calm_of_untouched w hwait)

/-- Everything the laws speak of stays. -/
theorem lawsKept_of_same (h : t.pattern = s.pattern ∧ t.eeprom = s.eeprom ∧ t.panel.ram = s.panel.ram ∧
    t.panel.display = s.panel.display ∧ t.panel.allPoints = s.panel.allPoints ∧ t.panel.saver = s.panel.saver ∧
    (∀ p, t.port p = s.port p) ∧ (∀ k, t.record k = s.record k) ∧ (∀ k, (t.seat k).running = (s.seat k).running) ∧
    t.waitList = s.waitList ∧ t.isReady = s.isReady) : LawsKept s t := by
  obtain ⟨hpattern, heeprom, hram, hdisplay, hall, hsaver, hport, hrecord, hrun, hwait, hready⟩ := h
  have hcalm : Calm s t := calm_of_same (fun j => by rw [hrecord]) (fun j => by rw [hrun]) hwait hready
  refine ⟨fun h => ?_, fun h k => ?_, fun h p => ?_, fun h => ?_, fun h => (hcalm h).1, fun hs =>
    held_of_lowered (hcalm hs).2 (fun k _ hk => by rw [hrecord]; exact hk) (fun k _ => by rw [hrecord])⟩
  · unfold State.MemoriesCanonical
    rw [hpattern, heeprom, hram]
    exact h
  · rw [hrecord]; exact h k
  · rw [hport]; exact h p
  · unfold State.SaverLawful
    rw [hsaver, hdisplay, hall]
    exact h

/-! ### Updates of one record -/

theorem lawsKept_setQueue (k : Fin 4) (q : List Step) : LawsKept s (s.setQueue k q) := lawsKept_of_same (by simp)

theorem lawsKept_setCapture (k : Fin 4) (c : Capture) : LawsKept s (s.setCapture k c) := lawsKept_of_same (by simp)

theorem lawsKept_setResults (k : Fin 4) (r : ResultStore) : LawsKept s (s.setResults k r) := lawsKept_of_same (by simp)

theorem lawsKept_setCursor (p : Port) (c : Cursor) : LawsKept s (s.setCursor p c) := lawsKept_of_same (by simp)

theorem lawsKept_setKey (y : Key) (d : Debounce) : LawsKept s (s.setKey y d) := lawsKept_of_same (by simp)

theorem lawsKept_setLamp (k : Fin 4) (x : Lamp) : LawsKept s (s.setLamp k x) := lawsKept_of_same (by simp)

/-- A port record changes: the laws of the ports alone are at stake. -/
theorem lawsKept_setPort (p : Port) {r : PortRecord} (hr : (s.port p).Lawful → r.Lawful) : LawsKept s (s.setPort p r) := by
  have hcalm : Calm s (s.setPort p r) := calm_of_same (by simp) (by simp) (by simp) (by simp)
  refine ⟨fun h => by simpa [State.MemoriesCanonical] using h, fun h k => by simpa using h k, fun h q => ?_,
    fun h => by simpa [State.SaverLawful] using h, fun h => (hcalm h).1,
    fun hs => held_of_lowered (hcalm hs).2 (fun k _ hk => by simpa using hk) (fun k _ => by simp)⟩
  by_cases hq : q = p
  · subst hq
    rw [port_setPort_same]
    exact hr (h q)
  · rw [port_setPort_other _ _ _ _ hq]
    exact h q

/-- A memory changes, or the panel mode: the laws of the other blocks are not at stake. -/
theorem lawsKept_of_blocks (hm : s.MemoriesCanonical → t.MemoriesCanonical) (hp : ∀ p, t.port p = s.port p)
    (hv : s.SaverLawful → t.SaverLawful) (hseat : ∀ k, t.seat k = s.seat k) (hwait : t.waitList = s.waitList)
    (hready : t.isReady = s.isReady) : LawsKept s t := by
  have hrecord : ∀ k, t.record k = s.record k := fun k => congrArg Seat.record (hseat k)
  have hcalm : Calm s t := calm_of_same (fun j => by rw [hrecord]) (fun j => by rw [hseat]) hwait hready
  exact ⟨hm, fun h k => by rw [hrecord]; exact h k, fun h p => by rw [hp]; exact h p, hv, fun h => (hcalm h).1,
    fun hs => held_of_lowered (hcalm hs).2 (fun k _ hk => by rw [hrecord]; exact hk) (fun k _ => by rw [hrecord])⟩

/-- Fields of a seat record change that its state does not fix (R1). -/
theorem lawsKept_editRecord (k : Fin 4) {r : SeatRecord} (hs : r.state = (s.record k).state)
    (hc : r.cause = (s.record k).cause) (ha : r.actuator = (s.record k).actuator) (hp : r.supply = (s.record k).supply)
    (hd : r.deadline = (s.record k).deadline)
    (hlevel : s.StepsLawful → r.state.confirmed = true → (s.record k).confirm.level = true → r.confirm.level = true)
    (howner : r.state = .testing → (s.record k).owner ≠ none → r.owner ≠ none) : LawsKept s (s.setRecord k r) := by
  have hcalm : Calm s (s.setRecord k r) := calm_of_same (fun j => by by_cases hj : j = k <;> simp [hj, hs]) (by simp)
    (by simp) (by simp)
  refine ⟨fun h => by simpa [State.MemoriesCanonical] using h, fun h j => ?_, fun h q => by simpa using h q,
    fun h => by simpa [State.SaverLawful] using h, fun h => (hcalm h).1, fun hl h => ⟨fun j hj => ?_, fun j hj => ?_⟩⟩
  all_goals by_cases hjk : j = k
  · subst hjk
    simpa using (h j).move (RecordMove.edit _ _ hs hc ha hp hd)
  · simpa [hjk] using h j
  · subst hjk
    rw [record_setRecord_same] at hj ⊢
    exact hlevel hl hj (h.closed j (hs ▸ hj))
  · rw [record_setRecord_other _ _ _ _ hjk] at hj ⊢
    exact h.closed j hj
  · subst hjk
    rw [record_setRecord_same] at hj ⊢
    exact howner hj (h.owned j (hs ▸ hj))
  · rw [record_setRecord_other _ _ _ _ hjk] at hj ⊢
    exact h.owned j hj

theorem lawsKept_foldl {α : Type} {f : State → α → State} (hf : ∀ v a, LawsKept v (f v a)) (xs : List α) (s : State) :
    LawsKept s (xs.foldl f s) := by
  induction xs generalizing s with
  | nil => exact .refl s
  | cons a xs ih => exact (hf s a).trans (ih (f s a))

theorem lawsKept_takeInOpenOrder {α : Type} {f : State → α → State} (hf : ∀ v a, LawsKept v (f v a)) (xs : List α) :
    LawsKept s (s.takeInOpenOrder xs f) := by
  obtain ⟨ys, n, -, heq⟩ := takeInOpenOrder_eq s xs f
  rw [heq]
  exact LawsKept.trans (.of_untouched (works_draws n) rfl) (lawsKept_foldl hf ys _)

/-! ### Seats outside TESTING (R2, R8) -/

/-- Work on a seat that is not in TESTING keeps the sequencer's law, when the seat may leave VACANT (R22). -/
theorem stepsLawful_of_idle (w : Works (· = k) s t) (hk : (s.record k).state ≠ .testing)
    (hplace : s.isReady = true ∨ (s.record k).state ≠ .vacant) (hrun : (t.seat k).running = (s.seat k).running)
    (hwait : t.waitList = s.waitList) (h : s.StepsLawful) : t.StepsLawful where
  runs j hj := by
    by_cases hjk : j = k
    · rw [hjk, hrun] at hj
      exact absurd (h.runs k hj) hk
    · rw [w.othersRecord j hjk]
      exact h.runs j (w.othersRunning j hjk ▸ hj)
  waits j hj := by
    have hjw : j ∈ s.waitList := hwait ▸ hj
    rw [w.othersRecord j fun e => hk (e ▸ h.waits j hjw)]
    exact h.waits j hjw
  idle j hj := by
    have hjw : j ∈ s.waitList := hwait ▸ hj
    rw [w.othersRunning j fun e => hk (e ▸ h.waits j hjw)]
    exact h.idle j hjw
  once := hwait ▸ h.once
  vacant hr j := by
    have hvacant := h.vacant (works_isReady w ▸ hr)
    have hs : s.isReady ≠ true := by rw [← works_isReady w, hr]; decide
    rw [w.othersRecord j fun _ => hplace.elim hs fun hp => hp (hvacant k)]
    exact hvacant j

theorem enterState_works (k : Fin 4) {st : SeatState} {d : Option RackTime} (n : Option Nat) (hst : st ≠ .fault)
    (hd : d.isSome = st.timed) : Works (· = k) s (s.enterState k st d n) := works_enterState k st d n rfl hst hd

/-- A seat outside TESTING takes another state: CLOSED confirm where the state asks for it, and an owner in TESTING. -/
theorem enterState_lawsKept {st : SeatState} {d : Option RackTime} (n : Option Nat) (hst : st ≠ .fault)
    (hd : d.isSome = st.timed) (hk : (s.record k).state ≠ .testing)
    (hplace : s.isReady = true ∨ (s.record k).state ≠ .vacant)
    (hconf : st.confirmed = true → (s.record k).state.confirmed = true ∨ (s.record k).confirm.level = true)
    (howner : st = .testing → (s.record k).owner ≠ none) : LawsKept s (s.enterState k st d n) := by
  have w := enterState_works (s := s) k n hst hd
  have hrec : (s.enterState k st d n).record k = (s.record k).enter st d :=
    congrArg Seat.record (enterState_seat_same st d n)
  have hrun : ((s.enterState k st d n).seat k).running = (s.seat k).running :=
    by rw [enterState_seat_same]
  refine ⟨w.memoriesCanonical, w.seatsLawful, w.portsLawful, w.saverLawful,
    stepsLawful_of_idle w hk hplace hrun (enterState_keeps k st d n).2.2.1,
    fun _ h => ⟨fun j hj => ?_, fun j hj => ?_⟩⟩
  all_goals by_cases hjk : j = k
  · subst hjk
    rw [hrec] at hj ⊢
    exact (hconf hj).elim (h.closed j) id
  · rw [w.othersRecord j hjk] at hj ⊢
    exact h.closed j hj
  · subst hjk
    rw [hrec] at hj ⊢
    exact howner hj
  · rw [w.othersRecord j hjk] at hj ⊢
    exact h.owned j hj

/-- A seat outside TESTING takes a state in which neither its confirm nor its owner matters. -/
theorem enterState_lawsKept_open {st : SeatState} {d : Option RackTime} (n : Option Nat) (hst : st ≠ .fault)
    (hd : d.isSome = st.timed) (hopen : st.confirmed = false) (hk : (s.record k).state ≠ .testing)
    (hplace : s.isReady = true ∨ (s.record k).state ≠ .vacant) : LawsKept s (s.enterState k st d n) :=
  enterState_lawsKept n hst hd hk hplace (fun h => nomatch hopen.symm.trans h)
    (fun h => by rw [h] at hopen; cases hopen)

/-! ### Entering FAULT (R8) -/

/-- The entry into FAULT of a seat that no longer runs a step: record, lamp, outputs, queue, notice (R8, stages 3 to 7). -/
def toFault (s : State) (k : Fin 4) (c : Cause) : State :=
  let flushed := (((s.setRecord k ((s.record k).enterFault c)).relamp k (s.effectiveLamp k)).restOutputs k).setQueue k []
  flushed.postSeat k (flushed.notice .fault (some k) none c.code (some (s.seat k).queue.length))

theorem faultSeat_fault (h : (s.record k).state = .fault) (c : Cause) : s.faultSeat k c = s := by
  rw [State.faultSeat, if_pos h]

theorem faultSeat_idle (hf : (s.record k).state ≠ .fault) (ht : (s.record k).state ≠ .testing) (c : Cause) :
    s.faultSeat k c = toFault s k c := by
  simp [State.faultSeat, toFault, hf, ht, State.restOutputs]

theorem faultSeat_testing (ht : (s.record k).state = .testing) (c : Cause) :
    s.faultSeat k c = (toFault ((s.abortRunning k c).leaveTesting k) k c).arbitrate := by
  simp [State.faultSeat, toFault, ht, State.restOutputs]

theorem toFault_seat (k : Fin 4) (c : Cause) : (toFault s k c).seat k = { s.seat k with
    record := (s.record k).enterFault c, queue := [], outputs := (s.seat k).outputs.restAll } := by
  simp [toFault, State.restOutputs]

theorem toFault_seat_other {j : Fin 4} (hj : j ≠ k) (c : Cause) : (toFault s k c).seat j = s.seat j := by
  simp [toFault, State.restOutputs, hj]

@[simp] theorem toFault_keeps (k : Fin 4) (c : Cause) : (toFault s k c).waitList = s.waitList ∧
    (toFault s k c).channels = s.channels := by
  simp [toFault, State.restOutputs]

theorem works_toFault (k : Fin 4) {c : Cause} (hc : c.isFault = true) : Works (· = k) s (toFault s k c) :=
  Works.trans (T := (· = k)) (works_setRecord k _ rfl (RecordMove.fault _ c hc) rfl rfl fun x => by cases x <;> rfl)
    ((works_relamp k _).trans ((works_restOutputs k).trans (Works.trans (T := (· = k))
      (works_setQueue k [] List.nil_suffix rfl) (works_postSeat k _))))

theorem faultSeat_works (k : Fin 4) {c : Cause} (hc : c.isFault = true) : Works (fun _ => True) s (s.faultSeat k c) :=
  works_faultSeat k c hc trivial fun _ _ => trivial

/-- The arbiter leaves a seat alone that is not in TESTING and does not wait. -/
theorem arbitrate_kept (hs : (s.record k).state ≠ .testing) (hw : k ∉ s.waitList) : SeatKept k s s.arbitrate :=
  others_keep (works_sequence_others _ (not_considerable_of_state hs) hw)

theorem toFault_state (k : Fin 4) (c : Cause) : ((toFault s k c).record k).state = .fault := by
  rw [State.record, toFault_seat]
  rfl

/-- A seat that left TESTING for FAULT does not wait. -/
theorem toFault_left_waitList (k : Fin 4) (c : Cause) :
    k ∉ (toFault ((s.abortRunning k c).leaveTesting k) k c).waitList := by
  rw [(toFault_keeps k c).1, leaveTesting_waitList]
  simp

theorem faultSeat_testing_kept (ht : (s.record k).state = .testing) (c : Cause) :
    SeatKept k (toFault ((s.abortRunning k c).leaveTesting k) k c) (s.faultSeat k c) := by
  rw [faultSeat_testing ht]
  exact arbitrate_kept (by rw [toFault_state]; decide) (toFault_left_waitList k c)

theorem faultSeat_state (s : State) (k : Fin 4) (c : Cause) : ((s.faultSeat k c).record k).state = .fault := by
  by_cases hf : (s.record k).state = .fault
  · rw [faultSeat_fault hf, hf]
  by_cases ht : (s.record k).state = .testing
  · obtain ⟨hrec, -⟩ := faultSeat_testing_kept ht c
    rw [hrec, toFault_state]
  · rw [faultSeat_idle hf ht, toFault_state]

/-- Entering FAULT keeps the sequencer's law and raises no seat (R8, R22). -/
theorem faultSeat_calm {c : Cause} (hc : c.isFault = true)
    (hplace : s.isReady = true ∨ (s.record k).state ≠ .vacant) : Calm s (s.faultSeat k c) := by
  have hrun : ∀ v : State, ((toFault v k c).seat k).running = (v.seat k).running := fun v => by rw [toFault_seat]
  by_cases hf : (s.record k).state = .fault
  · rw [faultSeat_fault hf]
    exact .refl s
  by_cases ht : (s.record k).state = .testing
  · rw [faultSeat_testing ht]
    have hleft := Works.trans (T := (· = k)) (works_abortRunning (s := s) k c rfl)
      ((works_leaveTesting k).trans (works_toFault k hc))
    refine Calm.trans (calm_of_left hleft ht ?_ (by rw [toFault_state]; decide) ?_) arbitrate_calm
    · rw [hrun, (leaveTesting_untouched k).2.2.1, abortRunning_running]
    · rw [(toFault_keeps k c).1, leaveTesting_waitList, abortRunning_waitList]
  · rw [faultSeat_idle hf ht]
    have w := works_toFault (s := s) k hc
    refine fun hs => ⟨stepsLawful_of_idle w ht hplace (hrun s) (toFault_keeps k c).1 hs, fun j => ?_⟩
    by_cases hjk : j = k
    · rw [hjk, toFault_state]
      exact ⟨nofun, nofun⟩
    · rw [w.othersRecord j hjk]
      exact ⟨id, id⟩

theorem faultSeat_lawsKept {c : Cause} (hc : c.isFault = true)
    (hplace : s.isReady = true ∨ (s.record k).state ≠ .vacant) : LawsKept s (s.faultSeat k c) :=
  .of_works (faultSeat_works k hc) (faultSeat_calm hc hplace)

end Steps
end Machine
end Sys2Proof
end

section
/-! The operations behind the commands and the events, each with the laws it keeps: ports and resets (R23, R189, R190), the
load (R22, R192), sensors (R3 to R7), frames, samples, stores, keys and the panel. -/

namespace Sys2Proof
namespace Machine
namespace Steps

variable {s t u : State} {k : Fin 4} {p : Port}

/-! ### The wait list beside the sequencer -/

theorem runBlock_waitList (c : Fin 8) (n : Nat) : (s.runBlock c n).1.waitList = s.waitList := by
  induction n generalizing s with
  | zero => rfl
  | succ n ih =>
    unfold State.runBlock
    split
    · rfl
    · split
      · simp
      · rw [ih, moveOnce_waitList]

theorem frameTriggerOne_waitList (k : Fin 4) (f c : Fin 8) (acc : State × Option (Fin 8)) :
    (frameTriggerOne k f acc c).1.waitList = acc.1.waitList := by
  unfold frameTriggerOne
  dsimp only
  split
  · split
    · simp [runBlock_waitList]
    · simp
  · rfl

theorem frameTrigger_waitList (k : Fin 4) (f : Fin 8) : (s.frameTrigger k f).1.waitList = s.waitList := by
  have hfold : ∀ (xs : List (Fin 8)) (acc : State × Option (Fin 8)),
      (xs.foldl (frameTriggerOne k f) acc).1.waitList = acc.1.waitList := by
    intro xs
    induction xs with
    | nil => exact fun _ => rfl
    | cons c xs ih => exact fun acc => (ih _).trans (frameTriggerOne_waitList k f c acc)
  rw [State.frameTrigger, hfold]

theorem transmitArbiter_waitList (k : Fin 4) : (s.transmitArbiter k).1.waitList = s.waitList := by
  unfold State.transmitArbiter
  split
  · rfl
  · split
    · split
      · rfl
      · simp [State.startTransmission, State.sendFrame, frameTrigger_waitList]
    · rfl

/-! ### The link and the ports (R175, R185 to R189) -/

/-- An answer, a level of an input or an end of a transaction leaves what R183 and R186 fix (R175). -/
theorem portLawful_relink {r q : PortRecord} (h : r.Lawful) (hq : q.queue = r.queue)
    (ht : q.threshold = r.threshold) (ha : q.attn = r.attn) (hb : q.select = false → q.link = .idle) : q.Lawful :=
  ⟨hq ▸ h.length, hq ▸ h.level, by rw [hq, ht, ha]; exact h.attn, hb⟩

theorem answer_lawsKept (p : Port) (a : Answer) : LawsKept s (s.answer p a) :=
  lawsKept_setPort p fun h => portLawful_relink h rfl rfl rfl nofun

theorem setResetActive_lawsKept (p : Port) (b : Bool) : LawsKept s (s.setResetActive p b) :=
  lawsKept_setPort p fun h => portLawful_relink h rfl rfl rfl h.between

theorem portLawful_pop {r : PortRecord} (h : r.Lawful) : r.pop.Lawful where
  length := by
    have hl := h.length
    simp only [PortRecord.pop, List.length_tail]
    omega
  level n hn := h.level n (List.mem_of_mem_tail hn)
  attn := judgeAttn_iff _ _
  between := h.between

theorem afterReset_lawful (r : PortRecord) : r.afterReset.Lawful :=
  ⟨Nat.zero_le _, List.forall_mem_nil _, judgeAttn_iff [] 0, fun _ => rfl⟩

/-- The level of chip select: a rise ends the transaction (R175, R176). -/
theorem portLawful_chipSelect {r : PortRecord} (h : r.Lawful) (isOpen active : Bool) :
    (r.chipSelect isOpen active).Lawful := by
  unfold PortRecord.chipSelect
  split
  · exact h
  · exact portLawful_relink h rfl rfl rfl fun hs => by simp only at hs; simp [hs]

/-- The owner becomes NONE, and a seat in TESTING is aborted into HOLD (R23). -/
theorem resetSeat_lawsKept (s : State) (k : Fin 4) : LawsKept s (resetSeat s k) := by
  have hdropped : Calm s (s.setRecord k { s.record k with owner := none }) :=
    calm_of_same (fun j => by by_cases hj : j = k <;> simp [hj]) (by simp) (by simp) (by simp)
  unfold resetSeat
  refine lawsKept_ite (fun ht => ?_) fun ht =>
    lawsKept_editRecord k rfl rfl rfl rfl rfl (fun _ _ => id) fun hs => absurd hs ht
  have w := works_haltSeat (T := fun _ => True) (s := s.setRecord k { s.record k with owner := none }) k .portReset trivial
  have hcalm := hdropped.trans
    (haltSeat_calm (s := s.setRecord k { s.record k with owner := none }) (k := k) (by simpa using ht) .portReset)
  refine ⟨fun h => w.memoriesCanonical (by simpa [State.MemoriesCanonical] using h),
    fun h => w.seatsLawful fun j => ?_, fun h => w.portsLawful fun q => by simpa using h q,
    fun h => w.saverLawful (by simpa [State.SaverLawful] using h), fun h => (hcalm h).1,
    fun hs => held_of_lowered (hcalm hs).2 (fun j _ hj => ?_) fun j hj => ?_⟩
  · by_cases hj : j = k
    · subst hj
      simpa using (h j).move (RecordMove.edit _ { s.record j with owner := none } rfl rfl rfl rfl rfl)
    · simpa [hj] using h j
  · rw [works_confirm w]
    by_cases hjk : j = k
    · subst hjk; simpa using hj
    · simpa [hjk] using hj
  · have hjk : j ≠ k := fun e => haltSeat_not_testing _ k .portReset (e ▸ hj)
    rw [w.owner, record_setRecord_other _ _ _ _ hjk]

theorem dropGrants_lawsKept (p : Port) : LawsKept s (s.dropGrants p) :=
  lawsKept_foldl (fun _ _ => lawsKept_of_same (by simp)) _ s

theorem portReset_lawsKept (p : Port) : LawsKept s (s.portReset p) := by
  have hcleared : LawsKept s (s.resetPortRecord p) :=
    (lawsKept_setPort p fun _ => afterReset_lawful _).trans (lawsKept_setCursor p _)
  have hseats := hcleared.trans (lawsKept_takeInOpenOrder resetSeat_lawsKept ((s.resetPortRecord p).seatsOf p))
  exact (hseats.works (works_arbitrate (T := fun _ => True) fun _ _ => trivial) arbitrate_calm).trans
    (dropGrants_lawsKept p)

/-! ### Cold reset (R190) -/

theorem coldReset_seat (s : State) (acc : StoreAccepted) (k : Fin 4) : (s.coldReset acc).seat k = (s.seat k).atReset := by
  match k with
  | 0 => rfl
  | 1 => rfl
  | 2 => rfl
  | 3 => rfl

theorem coldReset_port (s : State) (acc : StoreAccepted) (p : Port) :
    (s.coldReset acc).port p = (s.port p).afterReset := by cases p <;> rfl

theorem tornEeprom_wf (acc : StoreAccepted) (h : Memory.wf s.eeprom) : Memory.wf (s.tornEeprom acc) := by
  unfold State.tornEeprom
  split
  · exact h
  · exact storedWords_wf h _ acc

/-- Every block at its reset values; of the memories the EEPROM stays, but for the words of a store (R107). -/
theorem coldReset_lawsKept (acc : StoreAccepted) : LawsKept s (s.coldReset acc) := by
  have hrecord : ∀ k, ((s.coldReset acc).record k).state = .vacant := fun k => by
    rw [State.record, coldReset_seat]
    rfl
  refine ⟨fun h => ⟨Memory.wf_nil, tornEeprom_wf acc h.2.1, Memory.wf_nil⟩, fun _ k => ?_, fun _ p => ?_,
    fun _ => ?_, fun _ => ⟨fun k hk => ?_, List.forall_mem_nil _, List.forall_mem_nil _, List.nodup_nil,
      fun _ => hrecord⟩, fun _ _ => ⟨fun k hk => ?_, fun k hk => ?_⟩⟩
  · rw [State.record, coldReset_seat]
    exact ⟨rfl, fun _ => rfl, fun _ => rfl, nofun, rfl⟩
  · rw [coldReset_port]
    exact afterReset_lawful _
  · exact iff_of_false (fun h => h rfl) nofun
  · rw [coldReset_seat] at hk
    cases hk
  · rw [hrecord] at hk
    cases hk
  · rw [hrecord] at hk
    cases hk

/-! ### The load (R22, R192) -/

theorem loadCalibration_eq (s : State) : ∃ cs, s.loadCalibration = { s with calibration := cs } := by
  have hfold : ∀ (f : Fin 32 → CalEntry) (xs : List (Fin 32)) (u : State),
      ∃ cs, xs.foldl (fun t j => t.setCal j (f j)) u = { u with calibration := cs } := by
    intro f xs
    induction xs with
    | nil => exact fun u => ⟨u.calibration, rfl⟩
    | cons x xs ih =>
      intro u
      obtain ⟨cs, h⟩ := ih (u.setCal x (f x))
      exact ⟨cs, h⟩
  exact hfold _ calIds s

/-- The configuration takes effect in the loader, the calibration table and pattern memory (R60, R191). -/
theorem configure_eq (s : State) (used : Bool) : ∃ cs, s.configure used =
    { s with calibration := cs, loader := s.loadedLoader used, pattern := [] } := by
  unfold State.configure
  cases used with
  | true =>
    obtain ⟨cs, h⟩ := loadCalibration_eq s
    exact ⟨cs, by rw [if_pos rfl, h]⟩
  | false => exact ⟨s.calibration, rfl⟩

theorem loadedState_placed (r : SeatRecord) : r.loadedState ≠ .fault ∧ r.loadedState ≠ .testing ∧
    r.loadedState.confirmed = false := by
  unfold SeatRecord.loadedState
  split <;> decide

theorem placeSeat_works (s : State) (k : Fin 4) : Works (· = k) s (placeSeat s k) := by
  refine works_moveSeat k _ _ rfl (loadedState_placed _).1 ?_
  unfold SeatRecord.loadedState
  split <;> rfl

theorem placeSeat_seat (s : State) (k : Fin 4) : ∃ d, (placeSeat s k).seat k =
    { s.seat k with record := (s.record k).enter (s.record k).loadedState d } := by
  unfold placeSeat State.moveSeat
  simp

/-- Seats outside TESTING are placed by their levels (R22). -/
theorem foldl_placeSeat_calm (xs : List (Fin 4)) (hready : s.isReady = true)
    (hk : ∀ k, (s.record k).state ≠ .testing) : Calm s (xs.foldl placeSeat s) := by
  induction xs generalizing s with
  | nil => exact .refl s
  | cons x xs ih =>
    have w := placeSeat_works s x
    obtain ⟨d, hx⟩ := placeSeat_seat s x
    have hrec : (placeSeat s x).record x = (s.record x).enter (s.record x).loadedState d := by rw [State.record, hx]
    obtain ⟨-, htesting, hconfirmed⟩ := loadedState_placed (s.record x)
    have hlowered : Lowered s (placeSeat s x) := fun j => by
      by_cases hj : j = x
      · subst hj
        rw [hrec]
        exact ⟨fun h => absurd h htesting, fun h => nomatch hconfirmed.symm.trans h⟩
      · rw [w.othersRecord j hj]
        exact ⟨id, id⟩
    have hcalm : Calm s (placeSeat s x) := fun hs =>
      ⟨stepsLawful_of_idle w (hk x) (.inl hready) (by rw [hx]) (by simp [placeSeat, State.moveSeat]) hs, hlowered⟩
    exact hcalm.trans (ih ((works_isReady w).trans hready) fun j hj => hk j ((hlowered j).1 hj))

theorem works_foldl_placeSeat (xs : List (Fin 4)) : Works (fun _ => True) s (xs.foldl placeSeat s) :=
  Works.foldl xs s fun v k _ => (placeSeat_works v k).mono fun _ _ => trivial

/-- The end of the load (R192): no seat is in TESTING before it. -/
theorem endLoad_lawsKept (answers : Bool) (hloading : s.isReady = false) : LawsKept s (s.endLoad answers) := by
  obtain ⟨cs, hconf⟩ := configure_eq s (s.eepromUsed answers)
  have hready : (s.configure (s.eepromUsed answers)).isReady = true := by rw [hconf]; rfl
  have w : Works (fun _ => True) (s.configure (s.eepromUsed answers)) (s.endLoad answers) :=
    (works_foldl_placeSeat seatIds).trans (works_postBoth _)
  have hcalm : Calm s (s.endLoad answers) := fun hs => by
    have hvacant := hs.vacant hloading
    have hconfigured : (s.configure (s.eepromUsed answers)).StepsLawful := by
      rw [hconf]
      exact ⟨hs.runs, hs.waits, hs.idle, hs.once, fun h => nomatch h⟩
    have hstates : ∀ k, ((s.configure (s.eepromUsed answers)).record k).state = .vacant := fun k => by
      rw [hconf]
      exact hvacant k
    obtain ⟨hplaced, hlowered⟩ :=
      foldl_placeSeat_calm seatIds hready (fun k => by rw [hstates]; decide) hconfigured
    obtain ⟨hposted, hposts⟩ := calm_of_untouched (works_postBoth (s := seatIds.foldl placeSeat _) _)
      (by simp [State.postBoth, State.post]) hplaced
    refine ⟨hposted, fun j => ?_⟩
    have hj := (hlowered.trans hposts) j
    rw [hstates] at hj
    rw [hvacant]
    exact hj
  refine ⟨fun h => w.memoriesCanonical ?_, fun h => w.seatsLawful ?_, fun h => w.portsLawful ?_,
    fun h => w.saverLawful ?_, fun h => (hcalm h).1, fun hs => held_of_lowered (hcalm hs).2
      (fun k _ hk => ?_) fun k _ => ?_⟩
  · rw [hconf]; exact ⟨Memory.wf_nil, h.2⟩
  · rw [hconf]; exact h
  · rw [hconf]; exact h
  · rw [hconf]; exact h
  · rw [works_confirm w, hconf]; exact hk
  · rw [w.owner, hconf]; rfl

/-! ### Sensors (R4 to R7) -/

theorem vacate_lawsKept (hk : (s.record k).state ≠ .testing) (hready : s.isReady = true) :
    LawsKept s (s.vacate k) :=
  (lawsKept_setQueue k []).trans
    (enterState_lawsKept_open _ (by decide) rfl rfl (by simpa using hk) (.inl (by simpa using hready)))

theorem presentChanged_lawsKept (k : Fin 4) (hready : s.isReady = true) : LawsKept s (s.presentChanged k) := by
  unfold State.presentChanged
  split
  case h_1 hstate => exact enterState_lawsKept_open _ (by decide) rfl rfl (by rw [hstate]; decide) (.inl hready)
  case h_2 hstate => exact vacate_lawsKept (by rw [hstate]; decide) hready
  case h_3 | h_4 | h_5 | h_6 | h_7 => exact faultSeat_lawsKept rfl (.inl hready)
  case h_8 => exact .refl s

theorem tripChanged_lawsKept (k : Fin 4) (hready : s.isReady = true) : LawsKept s (s.tripChanged k) := by
  unfold State.tripChanged
  split
  case h_1 | h_2 | h_3 => exact faultSeat_lawsKept rfl (.inl hready)
  case h_4 => exact .refl s

/-- A debounced level is recorded, and after the load the seat or the panel follows it (R22). -/
theorem afterLoad_lawsKept (ht : LawsKept s t) (hu : t.isReady = true → LawsKept t u) : LawsKept s (t.afterLoad u) :=
  lawsKept_ite (fun h => ht.trans (hu h)) fun _ => ht

theorem settlePresent_lawsKept (k : Fin 4) : LawsKept s (s.settleSensor k .present) :=
  lawsKept_editRecord k rfl rfl rfl rfl rfl (fun _ _ => id) fun _ => id

theorem settleTrip_lawsKept (k : Fin 4) : LawsKept s (s.settleSensor k .trip) :=
  lawsKept_editRecord k rfl rfl rfl rfl rfl (fun _ _ => id) fun _ => id

/-- A confirm that opens in a state that needs it CLOSED takes the seat to FAULT (R5). -/
theorem confirmLost_lawsKept (hconf : (s.record k).state.confirmed = true) :
    LawsKept s ((s.settleSensor k .confirm).faultSeat k .clampLost) := by
  have hrecord : (s.settleSensor k .confirm).record k = (s.record k).setSensor .confirm (s.record k).confirm.settle :=
    record_setRecord_same s k _
  have hother : ∀ j, j ≠ k → (s.settleSensor k .confirm).record j = s.record j := fun j hj =>
    record_setRecord_other s k j _ hj
  have hstate : ∀ j, ((s.settleSensor k .confirm).record j).state = (s.record j).state := fun j => by
    by_cases hj : j = k
    · rw [hj, hrecord]; rfl
    · rw [hother j hj]
  have howner : ∀ j, ((s.settleSensor k .confirm).record j).owner = (s.record j).owner := fun j => by
    by_cases hj : j = k
    · rw [hj, hrecord]; rfl
    · rw [hother j hj]
  have hplace : ((s.settleSensor k .confirm).record k).state ≠ .vacant := fun h => by
    rw [← hstate, h] at hconf
    cases hconf
  have w := faultSeat_works (s := s.settleSensor k .confirm) k (c := .clampLost) rfl
  have hcalm : Calm s ((s.settleSensor k .confirm).faultSeat k .clampLost) :=
    (calm_of_same hstate (by simp [State.settleSensor]) (by simp [State.settleSensor])
      (by simp [State.settleSensor])).trans (faultSeat_calm rfl (.inr hplace))
  refine ⟨fun h => w.memoriesCanonical (by simpa [State.MemoriesCanonical, State.settleSensor] using h),
    fun h => w.seatsLawful fun j => ?_, fun h => w.portsLawful fun q => by simpa [State.settleSensor] using h q,
    fun h => w.saverLawful (by simpa [State.SaverLawful, State.settleSensor] using h), fun h => (hcalm h).1,
    fun hs => held_of_lowered (hcalm hs).2 (fun j hj hlevel => ?_) fun j _ => by rw [w.owner, howner]⟩
  · by_cases hj : j = k
    · rw [hj, hrecord]
      exact (h k).move (RecordMove.edit _ _ rfl rfl rfl rfl rfl)
    · rw [hother j hj]
      exact h j
  · have hjk : j ≠ k := by
      rintro rfl
      rw [faultSeat_state] at hj
      cases hj
    rw [works_confirm w, hother j hjk]
    exact hlevel

end Steps
end Machine
end Sys2Proof
end

section
/-! Every command, every event and every microsecond keeps the laws of Safety.lean (O4, O7). -/

namespace Sys2Proof
namespace Machine
namespace Steps

variable {s t u : State} {k : Fin 4} {p : Port}

/-! ### The confirm level (R5) -/

/-- A settled confirm that is CLOSED, that the seat's state does not need, or that settles before the load has ended (R22),
is a field of the record like others. -/
theorem settleConfirm_lawsKept
    (h : (s.record k).confirm.raw = true ∨ (s.record k).state.confirmed = false ∨ s.isReady = false) :
    LawsKept s (s.settleSensor k .confirm) := by
  refine lawsKept_editRecord k rfl rfl rfl rfl rfl (fun hs hc _ => ?_) fun _ => id
  rcases h with hraw | hopen | hloading
  · exact hraw
  · exact nomatch hopen.symm.trans hc
  · have hvacant : (s.record k).state.confirmed = true := hc
    rw [hs.vacant hloading k] at hvacant
    cases hvacant

theorem settleConfirm_record (s : State) (k : Fin 4) : (s.settleSensor k .confirm).record k =
    { s.record k with confirm := (s.record k).confirm.settle } := record_setRecord_same s k _

/-- R5 for each level and state. -/
theorem confirmSettled_lawsKept (k : Fin 4) :
    LawsKept s ((s.settleSensor k .confirm).afterLoad ((s.settleSensor k .confirm).confirmChanged k)) := by
  have hready : (s.settleSensor k .confirm).isReady = s.isReady := by simp [State.settleSensor]
  have hrec := settleConfirm_record s k
  by_cases hloss : (s.record k).confirm.raw = false ∧ (s.record k).state.confirmed = true
  · obtain ⟨hraw, hconf⟩ := hloss
    have hchanged : (s.settleSensor k .confirm).confirmChanged k =
        (s.settleSensor k .confirm).faultSeat k .clampLost := by
      unfold State.confirmChanged
      rw [hrec]
      simp only [Debounce.settle, hraw]
      revert hconf
      cases (s.record k).state <;> simp [SeatState.confirmed]
    rw [hchanged]
    refine lawsKept_ite (fun _ => confirmLost_lawsKept hconf) fun hloading => ?_
    rw [hready] at hloading
    exact settleConfirm_lawsKept (.inr (.inr (by simpa using hloading)))
  · have hkept := settleConfirm_lawsKept (s := s) (k := k) (by
      rcases hraw : (s.record k).confirm.raw with _ | _
      · exact .inr (.inl (by simpa [hraw] using hloss))
      · exact .inl rfl)
    refine afterLoad_lawsKept hkept fun hr => ?_
    unfold State.confirmChanged
    rw [hrec]
    split
    case h_1 hlevel hstate =>
      have hs : (s.record k).state = .clamping := hstate
      refine enterState_lawsKept _ (by decide) rfl (by rw [hrec]; exact hs.symm ▸ by decide) (.inl hr)
        (fun _ => .inr ?_) nofun
      rw [hrec]
      exact hlevel
    case h_2 hlevel hstate | h_3 hlevel hstate | h_4 hlevel hstate | h_5 hlevel hstate =>
      exact faultSeat_lawsKept rfl (.inl hr)
    case h_6 hlevel hstate =>
      have hk : ((s.settleSensor k .confirm).record k).state ≠ .testing := by
        have hs : (s.record k).state = .unclamping := hstate
        rw [hrec]
        exact hs.symm ▸ by decide
      exact lawsKept_ite (fun _ => enterState_lawsKept_open _ (by decide) rfl rfl hk (.inl hr))
        fun _ => vacate_lawsKept hk hr
    case h_7 => exact .refl _

/-! ### The checks of a command and of an event (R178) -/

theorem ifOwner_lawsKept {body : State × Answer} (hb : (s.record k).owner = some p → LawsKept s body.1) :
    LawsKept s (ifOwner s p k body).1 := by
  unfold ifOwner
  split
  · exact hb ‹_›
  · exact .refl s

theorem ifOwnerOrFree_lawsKept {body : State × Answer} (hb : LawsKept s body.1) :
    LawsKept s (ifOwnerOrFree s p k body).1 := by
  unfold ifOwnerOrFree
  split
  · exact .refl s
  · exact hb

theorem require_lawsKept {c : Bool} {st : Status} {body : State × Answer} (hb : c = true → LawsKept s body.1) :
    LawsKept s (require s c st body).1 := by
  cases c with
  | false => exact .refl s
  | true => exact hb rfl

/-- A command whose body keeps the laws for every operand it reads, once the load has ended. -/
theorem command_lawsKept {α : Type} {arg : Option α} {body : α → State × Answer}
    (he : command p s (withArg s arg body) = .next t) (hb : s.isReady = true → ∀ x, LawsKept s (body x).1) :
    LawsKept s t := by
  unfold command at he
  split at he
  · injection he with he; exact he ▸ .refl s
  · split at he <;> (injection he with he; subst he)
    · exact answer_lawsKept p _
    · refine LawsKept.trans ?_ (answer_lawsKept p _)
      cases arg with
      | none => exact .refl s
      | some x => exact hb (by simp_all) x

/-- A command of one seat that its owner alone may give (R13). -/
theorem ownerCommand_lawsKept {α : Type} {arg : Option α} {seat : α → Fin 4} {body : α → State × Answer}
    (he : command p s (withArg s arg fun x => ifOwner s p (seat x) (body x)) = .next t)
    (hb : s.isReady = true → ∀ x, (s.record (seat x)).owner = some p → LawsKept s (body x).1) : LawsKept s t :=
  command_lawsKept he fun hr x => ifOwner_lawsKept (hb hr x)

theorem whenDue_lawsKept {due : Bool} (he : whenDue s due u = .next t) (hu : due = true → LawsKept s u) :
    LawsKept s t := by
  injection he with he
  exact he ▸ lawsKept_ite hu fun _ => .refl s

/-! ### Commands of the seats (R14 to R20, R42) -/

theorem clamp_lawsKept (hr : s.isReady = true) (hk : (s.record k).state = .loaded) : LawsKept s (s.clamp k).1 := by
  have ht : (s.record k).state ≠ .testing := by rw [hk]; decide
  unfold State.clamp
  split
  · next hlevel => exact enterState_lawsKept _ (by decide) rfl ht (.inl hr) (fun _ => .inr hlevel) nofun
  · exact enterState_lawsKept_open _ (by decide) rfl rfl ht (.inl hr)

theorem restOutputs_lawsKept (k : Fin 4) : LawsKept s (s.restOutputs k) :=
  .of_untouched (works_restOutputs k) (by simp [State.restOutputs])

/-- POWER_OFF: from POWERED or HOLD to CLAMPED, the outputs at rest (R16). -/
theorem powerOff_lawsKept (hr : s.isReady = true) (hconf : (s.record k).state.confirmed = true)
    (ht : (s.record k).state ≠ .testing) : LawsKept s ((s.restOutputs k).enterState k .clamped none none) := by
  have hsame : (s.restOutputs k).record k = s.record k := by simp [State.restOutputs]
  exact (restOutputs_lawsKept k).trans (enterState_lawsKept _ (by decide) rfl (hsame ▸ ht)
    (.inl (by simpa [State.restOutputs] using hr)) (fun _ => .inl (hsame ▸ hconf)) nofun)

theorem scheduleFrames_lawsKept (k : Fin 4) : LawsKept s (s.scheduleFrames k) := by
  refine .of_untouched (works_eachFrame k _) ?_
  obtain ⟨fs, heq, -⟩ := eachFrame_eq (s := s) (k := k) fun f => f.schedule s.clock
  exact (congrArg State.waitList heq).trans (by simp)

/-- A seat with an owner enters TESTING from POWERED or HOLD (R17, R19). -/
theorem enterTesting_lawsKept (hr : s.isReady = true) (hconf : (s.record k).state.confirmed = true)
    (ht : (s.record k).state ≠ .testing) (howner : (s.record k).owner = some p) : LawsKept s (s.enterTesting k) := by
  have hplaced : LawsKept s (s.enterState k .testing none none) :=
    enterState_lawsKept none (by decide) rfl ht (.inl hr) (fun _ => .inl hconf)
      fun _ => by rw [howner]; exact Option.some_ne_none p
  exact ((hplaced.trans (restOutputs_lawsKept k)).trans (scheduleFrames_lawsKept k)).works
    (works_sequence (T := fun _ => True) [.consider k] (fun _ _ => trivial) fun _ _ => by
      simp_all [Task.within]) (sequence_calm _)

/-- STOP_SEAT (R18). -/
theorem halted_lawsKept (ht : (s.record k).state = .testing) (c : Cause) :
    LawsKept s (s.haltSeat k c).arbitrate :=
  .of_works ((works_haltSeat (T := fun _ => True) k c trivial).arbitrated fun _ _ => trivial)
    ((haltSeat_calm ht c).trans arbitrate_calm)

/-- CLEAR_FAULT (R20). -/
theorem clearFault_lawsKept (hr : s.isReady = true) (hk : (s.record k).state = .fault) :
    LawsKept s (s.enterState k (s.record k).clearedState
      (if (s.record k).clearedState = .unclamping then some s.unclampDeadline else none) none) := by
  have hcleared : (s.record k).clearedState ≠ .fault ∧ (s.record k).clearedState ≠ .testing ∧
      ((s.record k).clearedState.confirmed = true → (s.record k).confirm.level = true) ∧
      (s.record k).clearedState.timed = decide ((s.record k).clearedState = .unclamping) := by
    unfold SeatRecord.clearedState
    split <;> simp_all [SeatState.confirmed, SeatState.timed]
  obtain ⟨hfault, htesting, hclosed, htimed⟩ := hcleared
  refine enterState_lawsKept _ hfault ?_ (by rw [hk]; decide) (.inl hr) (fun h => .inr (hclosed h))
    fun h => absurd h htesting
  rw [htimed]
  split <;> simp_all

/-- FLUSH_QUEUE (R42). -/
theorem flush_lawsKept (k : Fin 4) : LawsKept s (s.flush k) := by
  have hq : LawsKept s (s.setQueue k []) := lawsKept_setQueue k []
  refine lawsKept_ite (fun h => ?_) fun _ => hq
  obtain ⟨ht, hw⟩ := h
  refine hq.works ((works_leaveFor (T := fun _ => True) k .powered _ trivial (by decide) rfl).arbitrated
    fun _ _ => trivial) (Calm.trans (fun hs => ?_) arbitrate_calm)
  have hidle : ((s.setQueue k []).seat k).running = none := hs.idle k (by simpa using hw)
  exact leaveFor_calm (by simpa using ht) hidle (by decide) (by decide) rfl _ hs
end Steps
end Machine
end Sys2Proof
end

section
/-! Every command, every event and every microsecond keeps the laws of Safety.lean (O4, O7). -/

namespace Sys2Proof
namespace Machine
namespace Steps

variable {s t u : State} {k : Fin 4} {p : Port}

/-! ### Keys and the panel -/

theorem closePrompt_calm (k : Fin 4) : Calm s (s.closePrompt k) :=
  (calm_of_same (t := s.setPrompt k { isOpen := false, expected := none, width := none }) (by simp) (by simp) (by simp)
    (by simp)).trans (calm_of_untouched (works_relamp k _) (relamp_waitList k _))

theorem keyPressed_lawsKept (k : Fin 4) (a : YesNo) : LawsKept s (s.keyPressed k a) :=
  lawsKept_ite (fun _ => .of_works
    ((works_closePrompt (T := fun _ => True) k trivial).trans (works_deliverPrompt k _ trivial fun _ _ => trivial))
    ((closePrompt_calm k).trans (deliverPrompt_calm k _)))
    fun _ => .of_untouched (works_postSeat k _) (by simp)

theorem stopPressed_lawsKept : LawsKept s s.stopPressed :=
  lawsKept_takeInOpenOrder (f := stopOne)
    (fun _ _ => lawsKept_ite (fun ht => halted_lawsKept ht .stopKey) fun _ => .refl _) _

/-- The panel mode and the saver change together (R163). -/
theorem setPanelMode_lawsKept (d : Display) (a : AllPoints) : LawsKept s (s.setPanelMode d a) := by
  have hset := setPanelMode_set s d a
  obtain ⟨hdisplay, hall, hentered, hleft, -, -, -, hpanel, hrest⟩ := hset
  have hram := congrArg Panel.ram hpanel
  dsimp only at hram
  have hsame : ∀ {α : Type} (f : State → α), (∀ v : State, f { v with panel := s.panel } = f v) →
      f (s.setPanelMode d a) = f s := fun f hf => (hf _).symm.trans (congrArg f hrest)
  refine lawsKept_of_blocks (fun h => ?_) (fun q => hsame (fun v => v.port q) fun _ => rfl) (fun _ => ?_)
    (fun k => hsame (fun v => v.seat k) fun _ => rfl) (hsame (fun v => v.waitList) fun _ => rfl)
    (hsame (fun v => v.isReady) fun _ => rfl)
  · obtain ⟨hpattern, heeprom, hpanelRam⟩ := h
    exact ⟨(hsame (fun v => v.pattern) fun _ => rfl) ▸ hpattern, (hsame (fun v => v.eeprom) fun _ => rfl) ▸ heeprom,
      hram ▸ hpanelRam⟩
  · unfold State.SaverLawful
    rw [hdisplay, hall]
    by_cases hboth : d = .off ∧ a = .forced
    · rw [hentered hboth]
      refine iff_of_true ?_ hboth
      split
      · split <;> decide
      · assumption
    · exact iff_of_false (fun h => h (hleft hboth)) hboth

theorem writePanel_lawsKept (bs : List Byte) : LawsKept s (s.writePanel p bs) := by
  refine lawsKept_of_blocks (fun h => ?_) (by simp [State.writePanel]) (fun h => ?_) (by simp [State.writePanel])
    (by simp [State.writePanel]) (by simp [State.writePanel])
  · obtain ⟨hpattern, heeprom, hram⟩ := h
    have hwritten := writeBytes_wf (s.cursor p).page (s.panel.ram, (s.cursor p).column) bs hram
    cases p <;> exact ⟨hpattern, heeprom, hwritten⟩
  · cases p <;> exact h

theorem setLampMode_lawsKept (k : Fin 4) (m : LampMode) : LawsKept s (s.setLampMode k m) :=
  (lawsKept_setLamp k _).trans (.of_untouched (works_relamp k _) (relamp_waitList k _))

/-! ### Patterns, results, ports -/

theorem writePattern_lawsKept (a : PatternAddr) (ws : List Word) : LawsKept s (s.writePattern a ws) :=
  lawsKept_of_blocks (fun h => ⟨Memory.wf_writeSpan h.1 _ _, h.2⟩) (fun _ => rfl) id (fun _ => rfl) rfl rfl

theorem clearResults_lawsKept (k : Fin 4) : LawsKept s (s.clearResults k) := by
  have hsame : (s.setResults k ResultStore.empty).record k = s.record k := by simp
  have hedit : LawsKept (s.setResults k ResultStore.empty) ((s.setResults k ResultStore.empty).setRecord k
      { (s.setResults k ResultStore.empty).record k with serial := none }) :=
    lawsKept_editRecord k rfl rfl rfl rfl rfl (fun _ _ => id) fun _ => id
  rw [hsame] at hedit
  exact (lawsKept_setResults k _).trans hedit

theorem setThreshold_lawsKept (p : Port) (x : Fin 16) : LawsKept s (s.setPort p ((s.port p).setThreshold x)) :=
  lawsKept_setPort p fun h => ⟨h.length, h.level, judgeAttn_iff _ _, h.between⟩

/-- An abandoned transaction leaves the link receiver IDLE (R177). -/
theorem discard_lawsKept (p : Port) : LawsKept s (s.setPort p { s.port p with link := .idle, select := false }) :=
  lawsKept_setPort p fun h => portLawful_relink h rfl rfl rfl fun _ => rfl

/-! ### Channels, frames, samples and stores -/

theorem refused_lawsKept {r : State × Bool} (c : Fin 8) (w : Works (fun _ => True) s r.1) (h : Calm s r.1) :
    LawsKept s (takeRefusal r c) := by
  refine .of_works (T := fun _ => True) ?_ (takeRefusal_calm c h)
  unfold takeRefusal
  split
  · exact w.trans (works_handleRefusal c (fun _ _ => trivial) fun _ _ => trivial)
  · exact w

theorem refused?_lawsKept {r : State × Option (Fin 8)} (w : Works (fun _ => True) s r.1) (h : Calm s r.1) :
    LawsKept s (takeRefusal? r) := by
  refine .of_works (T := fun _ => True) ?_ (takeRefusal?_calm h)
  unfold takeRefusal?
  split
  · exact w
  · exact w.trans (works_handleRefusal _ (fun _ _ => trivial) fun _ _ => trivial)

theorem frameReceived_lawsKept (k : Fin 4) (ident : BitVec 11) (data : List Byte) :
    LawsKept s ((s.examineFrame k ident data).storeFrame k ident data) := by
  have hexamined : LawsKept s (s.examineFrame k ident data) := by
    unfold State.examineFrame
    dsimp only
    split
    · exact lawsKept_setCapture k _
    · exact (lawsKept_setCapture k _).works (works_deliverExpect (T := fun _ => True) k _ trivial fun _ _ => trivial)
        (deliverExpect_calm k _)
  exact hexamined.trans (lawsKept_setCapture k _)

theorem passSample_calm (m : Fin 6) (input : Fin 32) (raw : BitVec 12) : Calm s (s.passSample m input raw) := by
  have hslot : ∀ x : MeasSlot, Calm s (s.setSlot m x) := fun _ =>
    calm_of_same (by simp) (by simp) (by simp) (by simp)
  unfold State.passSample
  split
  · exact calm_ite (fun _ => (hslot _).trans (deliverMeas_calm _ _ _)) fun _ => hslot _
  · exact .refl s

theorem completeConversion_lawsKept : LawsKept s s.completeConversion := by
  refine .of_works works_completeConversion ?_
  unfold State.completeConversion
  split
  · exact .refl s
  · next m b input _ raw _ =>
    dsimp only
    have hpassed : Calm s (if (s.slot m).samplesUnder b then s.passSample m input raw else s) :=
      calm_ite (fun _ => passSample_calm m input raw) fun _ => .refl s
    exact hpassed.trans (calm_of_untouched ((works_converter _ .idle).trans works_converterArbiter) (by simp))

theorem post_waitList (p : Port) (n : Notice) : (s.post p n).waitList = s.waitList := by simp [State.post]

theorem endStore_lawsKept (x : StoreOp) (acc : StoreAccepted) : LawsKept s (s.endStore x acc) := by
  have hstored : LawsKept s (({ s with eeprom := storedWords s.eeprom x acc } : State).setStore none) :=
    lawsKept_of_blocks (fun h => ⟨h.1, storedWords_wf h.2.1 x acc, h.2.2⟩) (fun _ => rfl) id (fun _ => rfl) rfl rfl
  exact hstored.trans (.of_untouched (works_post _ _) (post_waitList _ _))

/-! ### Time -/

theorem tickSeat_lawsKept (s : State) (k : Fin 4) : LawsKept s (tickLamp (tickOutputs s k) k) := by
  have houtputs : LawsKept s (tickOutputs s k) := .of_untouched (works_setOutputs k _) (by simp [tickOutputs])
  unfold tickLamp
  split
  · exact houtputs
  · exact houtputs.trans (lawsKept_setLamp k _)

theorem tick_lawsKept : LawsKept s s.tick := by
  have hticked := lawsKept_foldl tickSeat_lawsKept seatIds s
  unfold State.tick
  generalize seatIds.foldl (fun x k => tickLamp (tickOutputs x k) k) s = u at hticked ⊢
  exact hticked.trans (lawsKept_of_blocks id (fun _ => rfl) id (fun _ => rfl) rfl rfl)

/-- The world outside drives the chip selects; nothing else of what the laws speak of changes (log entry 9). -/
theorem drivePins_lawsKept : LawsKept s s.drivePins := by
  have hrest : LawsKept { s with portA := s.drivePins.portA, portB := s.drivePins.portB } s.drivePins :=
    lawsKept_of_blocks id (fun q => by cases q <;> rfl) id (fun _ => rfl) rfl rfl
  have ha : LawsKept s (s.setPort .a (s.portA.chipSelect (s.linkOpen .a) (Config.freeSelect s.draws (portCode .a)))) :=
    lawsKept_setPort .a fun h => portLawful_chipSelect h _ _
  exact ha.trans ((lawsKept_setPort .b fun h => portLawful_chipSelect h (s.linkOpen .b) _).trans hrest)

theorem advanceTime_lawsKept : LawsKept s s.advanceTime :=
  lawsKept_ite (fun _ => drivePins_lawsKept) fun _ => drivePins_lawsKept.trans tick_lawsKept

/-! ### Every command and every event -/

/-- The rack reset ends: the loader goes from held to loading, and the load has ended in neither (R190). -/
theorem rackResetRelease_lawsKept (h : s.loader.phase = .held) :
    LawsKept s { s with loader := { s.loader with phase := .loading }, clock := Instant.zero } :=
  lawsKept_of_blocks id (fun _ => rfl) id (fun _ => rfl) rfl (by simp [State.isReady, h])

theorem lawsKept_setGrant (r : Fin 32) (g : Grant) : LawsKept s (s.setGrant r g) := lawsKept_of_same (by simp)

theorem lawsKept_setProgram (i : Fin 48) (x : ProgramEntry) : LawsKept s (s.setProgram i x) := lawsKept_of_same (by simp)

theorem lawsKept_setLimit (i : Fin 256) (x : LimitEntry) : LawsKept s (s.setLimit i x) := lawsKept_of_same (by simp)

theorem lawsKept_setChannel (c : Fin 8) (x : Channel) : LawsKept s (s.setChannel c x) := lawsKept_of_same (by simp)

theorem lawsKept_setOutputs (k : Fin 4) (x : Outputs) : LawsKept s (s.setOutputs k x) := lawsKept_of_same (by simp)

theorem lawsKept_setFrame (k : Fin 4) (f : Fin 8) (x : FrameSlot) : LawsKept s (s.setFrame k f x) :=
  lawsKept_of_same (by simp)

/-- UNCLAMP: from CLAMPED to UNCLAMPING (R15). -/
theorem unclamp_lawsKept (hr : s.isReady = true) (hk : (s.record k).state = .clamped) :
    LawsKept s (s.enterState k .unclamping (some s.unclampDeadline) none) :=
  enterState_lawsKept_open none (by decide) rfl rfl (by rw [hk]; decide) (.inl hr)

/-- POWER_ON: from CLAMPED to POWERED (R16). -/
theorem powerOn_lawsKept (hr : s.isReady = true) (hk : (s.record k).state = .clamped) :
    LawsKept s (s.enterState k .powered none none) :=
  enterState_lawsKept none (by decide) rfl (by rw [hk]; decide) (.inl hr) (fun _ => .inl (by rw [hk]; rfl)) nofun

theorem rawChange_level (d : Debounce) (active : Bool) (now : Instant) : (d.rawChange active now).level = d.level := by
  unfold Debounce.rawChange
  split <;> rfl

/-- A raw change reaches no debounced level (R3). -/
theorem sensorRawChange_lawsKept (k : Fin 4) (x : Sensor) (active : Bool) :
    LawsKept s (s.setRecord k ((s.record k).setSensor x (((s.record k).sensor x).rawChange active s.clock))) := by
  cases x with
  | present | trip => exact lawsKept_editRecord k rfl rfl rfl rfl rfl (fun _ _ => id) fun _ => id
  | confirm =>
    exact lawsKept_editRecord k rfl rfl rfl rfl rfl (fun _ _ h => (rawChange_level _ _ _).trans h) fun _ => id

theorem done_lawsKept (h : LawsKept s t) : LawsKept s (done t).1 := h

/-- Every command and every event keeps the laws. -/
theorem exec_lawsKept (c : Instr) (he : exec c s = .next t) : LawsKept s t := by
  cases c with
  | status p ps =>
    change execStatus p ps s = _ at he
    unfold execStatus at he
    split at he
    · injection he with he; exact he ▸ .refl s
    · split at he <;> (injection he with he; subst he)
      · exact answer_lawsKept p _
      · have hcleared : LawsKept s (s.setPort p (s.port p).clearOverflow) :=
          lawsKept_setPort p fun h => ⟨h.length, h.level, h.attn, h.between⟩
        exact hcleared.trans (answer_lawsKept p _)
  | unknownCommand p code ps =>
    change execUnknownCommand p code ps s = _ at he
    unfold execUnknownCommand at he
    split at he <;> (injection he with he; subst he)
    · exact .refl s
    · exact answer_lawsKept p _
  | linkTransactionDiscarded p bytes =>
    change execLinkTransactionDiscarded p bytes s = _ at he
    unfold execLinkTransactionDiscarded at he
    split at he <;> (injection he with he; subst he)
    · exact .refl s
    · exact discard_lawsKept p
  | portResetInput p =>
    have hactive : LawsKept s (s.setResetActive p true) := setResetActive_lawsKept p true
    change execPortResetInput p s = _ at he
    unfold execPortResetInput at he
    split at he <;> (injection he with he; subst he)
    · exact hactive
    · exact hactive.trans (lawsKept_setPort p fun _ => afterReset_lawful _)
    · exact hactive.trans (portReset_lawsKept p)
  -- commands that only read
  | readSeat p ps | readStepState p ps | readSnapshot p ps | readPattern p ps | readRegions p ps | readProgram p ps
  | readChannel p ps | readOutputs p ps | readFrameSlot p ps | readCalibration p ps | readSlot p ps | readLimit p ps
  | readPanelState p ps | readResult p ps | readSummary p ps => exact command_lawsKept he fun _ _ => .refl s
  -- ports and the panel
  | readNotice p ps => exact command_lawsKept he fun _ _ => lawsKept_setPort p portLawful_pop
  | setNoticeLevel p ps =>
    exact command_lawsKept he fun _ _ => lawsKept_setPort p fun h => ⟨h.length, h.level, h.attn, h.between⟩
  | setThreshold p ps => exact command_lawsKept he fun _ x => setThreshold_lawsKept p x
  | portReset p ps => exact command_lawsKept he fun _ _ => done_lawsKept (portReset_lawsKept p)
  | setCursor p ps | rmwBegin p ps | rmwEnd p ps =>
    exact command_lawsKept he fun _ _ => require_lawsKept fun _ => lawsKept_setCursor _ _
  | readPanel p ps => exact command_lawsKept he fun _ _ => lawsKept_setCursor _ _
  | writePanel p ps =>
    exact command_lawsKept he fun _ _ => require_lawsKept fun _ => require_lawsKept fun _ =>
      done_lawsKept (writePanel_lawsKept _)
  | panelOn p ps | panelOff p ps | allPointsNormal p ps | allPointsForced p ps =>
    exact command_lawsKept he fun _ _ => done_lawsKept (setPanelMode_lawsKept _ _)
  | setLamp p ps => exact ownerCommand_lawsKept he fun _ x _ => done_lawsKept (setLampMode_lawsKept x.1 x.2)
  -- seats
  | claimSeat p ps =>
    exact command_lawsKept he fun _ k => require_lawsKept fun _ =>
      lawsKept_editRecord k rfl rfl rfl rfl rfl (fun _ _ => id) fun _ _ => Option.some_ne_none p
  | releaseSeat p ps =>
    exact ownerCommand_lawsKept he fun _ k _ => require_lawsKept fun h =>
      lawsKept_editRecord k rfl rfl rfl rfl rfl (fun _ _ => id) fun ht => absurd ht (by simpa using h)
  | clamp p ps =>
    exact ownerCommand_lawsKept he fun hr k _ => require_lawsKept fun h => require_lawsKept fun _ =>
      clamp_lawsKept hr (of_decide_eq_true h)
  | unclamp p ps =>
    exact ownerCommand_lawsKept he fun hr k _ => require_lawsKept fun h =>
      unclamp_lawsKept hr (of_decide_eq_true h)
  | powerOn p ps =>
    refine ownerCommand_lawsKept he fun hr k _ => require_lawsKept fun h => ?_
    rw [Bool.and_eq_true, decide_eq_true_eq] at h
    obtain ⟨hk, -⟩ := h
    exact done_lawsKept (powerOn_lawsKept hr hk)
  | powerOff p ps =>
    refine ownerCommand_lawsKept he fun hr k _ => require_lawsKept fun h => ?_
    rw [Bool.or_eq_true, decide_eq_true_eq, decide_eq_true_eq] at h
    rcases h with hk | hk <;> exact done_lawsKept (powerOff_lawsKept hr (by rw [hk]; rfl) (by rw [hk]; decide))
  | start p ps | resume p ps =>
    refine ownerCommand_lawsKept he fun hr k howner => require_lawsKept fun h => ?_
    rw [Bool.and_eq_true, decide_eq_true_eq] at h
    obtain ⟨hk, -⟩ := h
    exact done_lawsKept (enterTesting_lawsKept hr (by rw [hk]; rfl) (by rw [hk]; decide) howner)
  | stopSeat p ps =>
    exact ownerCommand_lawsKept he fun _ k _ => require_lawsKept fun h =>
      done_lawsKept (halted_lawsKept (of_decide_eq_true h) .stopSeat)
  | clearFault p ps =>
    exact command_lawsKept he fun hr k => ifOwnerOrFree_lawsKept (require_lawsKept fun h =>
      done_lawsKept (clearFault_lawsKept hr (of_decide_eq_true h)))
  | clearResults p ps =>
    exact command_lawsKept he fun _ k => ifOwnerOrFree_lawsKept (require_lawsKept fun _ => clearResults_lawsKept k)
  | setSerial p ps =>
    exact ownerCommand_lawsKept he fun _ _ _ => require_lawsKept fun _ => require_lawsKept fun _ =>
      lawsKept_editRecord _ rfl rfl rfl rfl rfl (fun _ _ => id) fun _ => id
  -- steps, patterns and the tables
  | queueStep p ps =>
    exact ownerCommand_lawsKept he fun _ _ _ => require_lawsKept fun _ => require_lawsKept fun _ => lawsKept_setQueue _ _
  | flushQueue p ps => exact ownerCommand_lawsKept he fun _ k _ => flush_lawsKept k
  | abortStep p ps =>
    exact ownerCommand_lawsKept he fun _ x _ => require_lawsKept fun _ => done_lawsKept (.of_works
      (works_abortByPolicy (T := fun _ => True) x.1 .stationAbort trivial fun _ _ => trivial) (abortByPolicy_calm _ _))
  | takeRegion p ps =>
    refine command_lawsKept he fun _ r => ?_
    split
    · exact lawsKept_setGrant r _
    · exact require_lawsKept fun _ => .refl s
  | shareRegion p ps | dropRegion p ps =>
    exact command_lawsKept he fun _ r => require_lawsKept fun _ => lawsKept_setGrant r _
  | writePattern p ps =>
    exact command_lawsKept he fun _ _ => require_lawsKept fun _ => done_lawsKept (writePattern_lawsKept _ _)
  | writeProgram p ps | eraseProgram p ps =>
    exact command_lawsKept he fun _ _ => require_lawsKept fun _ => lawsKept_setProgram _ _
  | writeLimit p ps | eraseLimit p ps =>
    exact command_lawsKept he fun _ _ => require_lawsKept fun _ => lawsKept_setLimit _ _
  | setShadow p ps =>
    exact ownerCommand_lawsKept he fun _ _ _ => require_lawsKept fun _ => lawsKept_setChannel _ _
  | setOutput p ps =>
    exact ownerCommand_lawsKept he fun _ _ _ => require_lawsKept fun _ => require_lawsKept fun _ =>
      lawsKept_setOutputs _ _
  | setFrameSlot p ps =>
    exact ownerCommand_lawsKept he fun _ _ _ => lawsKept_setFrame _ _ _
  | setCalibration p ps =>
    exact command_lawsKept he fun _ _ => lawsKept_of_blocks id (fun _ => rfl) id (fun _ => rfl) rfl rfl
  | storeCalibration p ps =>
    exact command_lawsKept he fun _ _ => require_lawsKept fun _ =>
      lawsKept_of_blocks id (fun _ => rfl) id (fun _ => rfl) rfl rfl
  | setFilter p ps | setAcceptLong p ps | flushCapture p ps =>
    exact ownerCommand_lawsKept he fun _ _ _ => lawsKept_setCapture _ _
  | readCapture p ps | captureStatus p ps => exact command_lawsKept he fun _ _ => lawsKept_setCapture _ _
  -- events
  | sensorRawChange k x active =>
    injection he with he
    exact he ▸ sensorRawChange_lawsKept k x active
  | keyRawChange key active => injection he with he; exact he ▸ lawsKept_setKey _ _
  | portResetRelease p => injection he with he; exact he ▸ setResetActive_lawsKept p false
  | coldReset acc => injection he with he; exact he ▸ coldReset_lawsKept acc
  | presentLevelChange k =>
    exact whenDue_lawsKept he fun _ => afterLoad_lawsKept (settlePresent_lawsKept k) (presentChanged_lawsKept k)
  | confirmLevelChange k => exact whenDue_lawsKept he fun _ => confirmSettled_lawsKept k
  | tripLevelChange k =>
    exact whenDue_lawsKept he fun _ => afterLoad_lawsKept (settleTrip_lawsKept k) (tripChanged_lawsKept k)
  | keyPress k key =>
    exact whenDue_lawsKept he fun _ => afterLoad_lawsKept (lawsKept_setKey _ _) fun _ => keyPressed_lawsKept k key
  | stopKeyPress =>
    exact whenDue_lawsKept he fun _ => afterLoad_lawsKept (lawsKept_setKey _ _) fun _ => stopPressed_lawsKept
  | keyRelease key => exact whenDue_lawsKept he fun _ => lawsKept_setKey _ _
  | clampTimerExpiry k | unclampTimerExpiry k =>
    refine whenDue_lawsKept he fun h => faultSeat_lawsKept rfl (.inr ?_)
    simp only [State.deadlineReady, Bool.and_eq_true, decide_eq_true_eq] at h
    rw [h.1]
    decide
  | windowExpiry k =>
    exact whenDue_lawsKept he fun _ => .of_works
      (works_expireWindow (T := fun _ => True) k trivial fun _ _ => trivial) (expireWindow_calm k)
  | timerTrigger c =>
    exact whenDue_lawsKept he fun _ => refused_lawsKept c (works_takeTimer c)
      (calm_of_untouched (works_takeTimer c) (takeTimer_waitList c))
  | channelMove c =>
    exact whenDue_lawsKept he fun _ => refused_lawsKept c (works_moveOnce c)
      (calm_of_untouched (works_moveOnce c) (moveOnce_waitList c))
  | frameSlotDue k f =>
    refine whenDue_lawsKept he fun _ => refused?_lawsKept ((works_setFrame k f _).trans (works_transmitArbiter k))
      (calm_of_untouched ((works_setFrame k f _).trans (works_transmitArbiter k)) ?_)
    rw [transmitArbiter_waitList]
    simp
  | transmissionComplete k ack =>
    change execTransmissionComplete k ack s = _ at he
    unfold execTransmissionComplete at he
    split at he <;> (injection he with he; subst he)
    · exact .refl s
    · refine refused?_lawsKept ((works_endTransmission k _ ack).trans (works_transmitArbiter k))
        (calm_of_untouched ((works_endTransmission k _ ack).trans (works_transmitArbiter k)) ?_)
      rw [transmitArbiter_waitList]
      simp [State.endTransmission]
  | frameReceived k ident data => exact whenDue_lawsKept he fun _ => frameReceived_lawsKept k ident data
  | gateTimeReached m =>
    exact whenDue_lawsKept he fun _ => .of_untouched (works_openGate m) (openGate_waitList m)
  | slotDue m =>
    have hdue : LawsKept s (s.setSlot m { s.slot m with due := true }) := lawsKept_of_same (by simp)
    exact whenDue_lawsKept he fun _ => hdue.trans (.of_untouched works_converterArbiter converterArbiter_waitList)
  | conversionComplete m => exact whenDue_lawsKept he fun _ => completeConversion_lawsKept
  | storeEnd acc =>
    change execStoreEnd acc s = _ at he
    unfold execStoreEnd at he
    split at he
    · injection he with he; exact he ▸ .refl s
    · exact whenDue_lawsKept he fun _ => endStore_lawsKept _ acc
  | loadEnd answers =>
    refine whenDue_lawsKept he fun h => endLoad_lawsKept answers ?_
    simp only [State.loadReady, Bool.and_eq_true, decide_eq_true_eq] at h
    simp [State.isReady, h.1]
  | rackResetRelease => exact whenDue_lawsKept he fun h => rackResetRelease_lawsKept (by simpa using h)

/-- A step is a command, a due event, or a microsecond, and each keeps the laws. -/
theorem step_lawsKept (hstep : step s = .next t) : LawsKept s t := by
  have hsame : ∀ (cs : List Instr) (n : Nat), LawsKept s { s with pending := cs, draws := n } := fun _ _ =>
    lawsKept_of_blocks id (fun _ => rfl) id (fun _ => rfl) rfl rfl
  unfold step at hstep
  split at hstep
  · unfold idle at hstep
    split at hstep
    · injection hstep with hstep
      exact hstep ▸ advanceTime_lawsKept
    · exact (hsame _ _).trans (exec_lawsKept _ hstep)
  · next c rest _ => exact (hsame rest _).trans (exec_lawsKept c hstep)

/-- Settles O4: a step keeps each of the laws; for the confirm levels and the owners the law of the sequencer tells that
the load places no seat that is in TESTING. -/
theorem stepKeepsRecordsLawful : Obligations.StepKeepsRecordsLawful :=
  ⟨fun _ _ h hstep => (step_lawsKept hstep).memories h, fun _ _ h hstep => (step_lawsKept hstep).records h,
    fun _ _ hs h hstep => (step_lawsKept hstep).held hs h, fun _ _ h hstep => (step_lawsKept hstep).ports h,
    fun _ _ h hstep => (step_lawsKept hstep).saver h⟩

/-- Settles O7: a step keeps the law of the sequencer. -/
theorem stepKeepsStepsLawful : Obligations.StepKeepsStepsLawful := fun _ _ h hstep => (step_lawsKept hstep).steps h

end Steps
end Machine
end Sys2Proof
end

section
/-! The commands of the seats with their checks (R11 to R20), and the sensors, keys and clamp timers (R3 to R7, R158). -/

namespace Sys2Proof
namespace Machine
namespace Steps

variable {s t u : State} {k : Fin 4} {p : Port}

/-! ### The checks of a command of one seat (R13, R178) -/

/-- A changing seat command from a port that does not own the seat is refused (R13). -/
theorem ownerCommand_refused {α : Type} {arg : Option α} {seat : α → Fin 4} {body : α → State × Answer} {q : Port}
    (h : s.takes p) (hc : arg.map (fun x => (q, seat x)) = some (p, k)) (ho : (s.record k).owner ≠ some p) :
    command q s (withArg s arg fun x => ifOwner s q (seat x) (body x)) = answered s p .notOwner [] := by
  obtain ⟨x, rfl, hx⟩ := Option.map_eq_some_iff.mp hc
  obtain ⟨rfl, rfl⟩ := Prod.mk.injEq .. ▸ hx
  rw [withArg_some, ifOwner_other ho, command_taken_pair h]

theorem ownerIndex_taken (ho : (s.record k).owner = some p) (body : Fin 4 → State × Answer) :
    command p s (withArg s (indexArg 4 [byteOf k.val]) fun k => ifOwner s p k (body k)) = command p s (body k) := by
  rw [indexArg_byteOf (by decide), withArg_some, ifOwner_owner ho]

theorem freeIndex_taken (ho : (s.record k).owner ≠ some (otherPort p)) (body : Fin 4 → State × Answer) :
    command p s (withArg s (indexArg 4 [byteOf k.val]) fun k => ifOwnerOrFree s p k (body k)) = command p s (body k) := by
  rw [indexArg_byteOf (by decide), withArg_some, ifOwnerOrFree_taken ho]

theorem freeIndex_refused (h : s.takes p) (ho : (s.record k).owner = some (otherPort p))
    (body : Fin 4 → State × Answer) :
    command p s (withArg s (indexArg 4 [byteOf k.val]) fun k => ifOwnerOrFree s p k (body k)) =
      answered s p .notOwner [] := by
  rw [indexArg_byteOf (by decide), withArg_some, ifOwnerOrFree_other ho, command_taken_pair h]

theorem require_taken {c : Bool} (hc : c = true) (st : Status) (body : State × Answer) :
    command p s (require s c st body) = command p s body := by rw [hc, require_true]

theorem require_refused (h : s.takes p) {c : Bool} (hc : c = false) (st : Status) (body : State × Answer) :
    command p s (require s c st body) = answered s p st [] := by
  rw [hc, require_false, command_taken_pair h]

/-- Settles O13: every changing seat command asks for the owner first, CLEAR_FAULT and CLEAR_RESULTS only for a seat the
other port owns. -/
theorem ownershipIsChecked : Obligations.OwnershipIsChecked := by
  refine fun p k s h => ⟨fun c hc ho => ?_, fun ho => ⟨freeIndex_refused h ho _, freeIndex_refused h ho _⟩⟩
  cases c with
  | releaseSeat q ps | clamp q ps | unclamp q ps | powerOn q ps | powerOff q ps | start q ps | stopSeat q ps
  | resume q ps | flushQueue q ps | flushCapture q ps | queueStep q ps | abortStep q ps | setShadow q ps
  | setOutput q ps | setFrameSlot q ps | setFilter q ps | setAcceptLong q ps | setLamp q ps | setSerial q ps =>
    exact ownerCommand_refused h hc ho
  | _ => exact nomatch hc

/-! ### Commands that change the seat's state (R11 to R19) -/

theorem exec_claimSeat : exec (.claimSeat p [byteOf k.val]) s = command p s
    (require s ((s.record k).owner != some (otherPort p)) .inUse
      (done (s.setRecord k { s.record k with owner := some p }))) := by
  change command p s (withArg s (indexArg 4 [byteOf k.val]) _) = _
  rw [indexArg_byteOf (by decide), withArg_some]

theorem isPending_iff (r : ResultStore) : r.isPending = true ↔ r.entries ≠ [] ∨ r.summary ≠ .none := by
  simp [ResultStore.isPending]

/-- A CLAMP that is taken (R14). -/
theorem clamp_taken (h : s.takes p) (ho : (s.record k).owner = some p) (hk : (s.record k).state = .loaded)
    (he : (s.seat k).results.entries = []) (hs : (s.seat k).results.summary = .none) :
    exec (.clamp p [byteOf k.val]) s =
      if (s.record k).confirm.level then answered (s.enterState k .clamped none none) p .ok []
      else answered (s.enterState k .clamping (some (msAfter s.now s.loader.clampTimeout)) none) p .accepted [] := by
  have hfree : (!(s.seat k).results.isPending) = true := by
    simp [ResultStore.isPending, he, hs]
  refine (ownerIndex_taken ho _).trans ((require_taken (decide_eq_true hk) _ _).trans
    ((require_taken hfree _ _).trans ?_))
  unfold State.clamp
  split <;> exact command_taken_pair h _ _ _

theorem claim_release (h : s.takes p) :
    ((s.record k).owner ≠ some (otherPort p) → exec (.claimSeat p [byteOf k.val]) s =
      answered (s.setRecord k { s.record k with owner := some p }) p .ok []) ∧
    ((s.record k).owner = some (otherPort p) → exec (.claimSeat p [byteOf k.val]) s = answered s p .inUse []) ∧
    ((s.record k).owner = some p → (s.record k).state ≠ .testing → exec (.releaseSeat p [byteOf k.val]) s =
      answered (s.setRecord k { s.record k with owner := none }) p .ok []) ∧
    ((s.record k).owner = some p → (s.record k).state = .testing →
      exec (.releaseSeat p [byteOf k.val]) s = answered s p .wrongState []) :=
  ⟨fun ho => exec_claimSeat.trans ((require_taken (bne_iff_ne.mpr ho) _ _).trans (command_taken_pair h _ _ _)),
    fun ho => exec_claimSeat.trans (require_refused h (by simp [ho]) _ _),
    fun ho hk => (ownerIndex_taken ho _).trans
      ((require_taken (bne_iff_ne.mpr hk) _ _).trans (command_taken_pair h _ _ _)),
    fun ho hk => (ownerIndex_taken ho _).trans (require_refused h (by simp [hk]) _ _)⟩

/-- Settles O21: each command asks for its state and its further conditions, and enters the state it leads to. -/
theorem seatStateCommands : Obligations.SeatStateCommands := by
  refine ⟨fun p k s h => claim_release h, fun p k s h ho => ⟨fun hk => ?_, fun hk hp => ?_, clamp_taken h ho,
    fun hk => ?_, fun hk => ?_⟩, fun p k s h ho => ⟨fun hk ht => ?_, fun hk => ?_, fun hk => ?_, fun hp hh => ?_⟩,
    fun p k s h ho => ⟨fun hk hq => ?_, fun hk => ?_, fun hk hq => ?_, fun hk => ?_⟩⟩
  all_goals refine (ownerIndex_taken ho _).trans ?_
  -- CLAMP
  · exact require_refused h (decide_eq_false hk) _ _
  · exact (require_taken (decide_eq_true hk) _ _).trans
      (require_refused h (by simpa using (isPending_iff _).mpr hp) _ _)
  -- UNCLAMP
  · exact (require_taken (decide_eq_true hk) _ _).trans (command_taken_pair h _ _ _)
  · exact require_refused h (decide_eq_false hk) _ _
  -- POWER_ON and POWER_OFF
  · exact (require_taken (by simp [hk, ht]) _ _).trans (command_taken_pair h _ _ _)
  · exact require_refused h (by simpa [or_iff_not_imp_left] using hk) _ _
  · exact (require_taken (by simpa using hk) _ _).trans (command_taken_pair h _ _ _)
  · exact require_refused h (by simp [hp, hh]) _ _
  -- START and RESUME
  · exact (require_taken (by simp [hk, hq]) _ _).trans (command_taken_pair h _ _ _)
  · exact require_refused h (by simpa [or_iff_not_imp_left] using hk) _ _
  · exact (require_taken (by simp [hk, hq]) _ _).trans (command_taken_pair h _ _ _)
  · exact require_refused h (by simpa [or_iff_not_imp_left] using hk) _ _

end Steps
end Machine
end Sys2Proof
end

section
/-! A seat that enters a state (R2, R10, R160), and the events of the sensors, the keys and the clamp timers (R3 to R7,
R20, R158). -/

namespace Sys2Proof
namespace Machine
namespace Steps

variable {s t u : State} {k : Fin 4} {p : Port}

/-! ### Entering a state (R2, R10, R160) -/

theorem setLamp_self (s : State) (k : Fin 4) : s.setLamp k (s.lamp k) = s := by
  have hlamps : s.panel.lamps.set k (s.lamp k) = s.panel.lamps := by simp [State.lamp]
  rw [State.setLamp, hlamps]

/-- The phase starts afresh exactly when the effective mode has changed (R160). -/
theorem relamp_eq (k : Fin 4) (m : LampMode) : s.relamp k m =
    s.setLamp k { s.lamp k with phase := if s.effectiveLamp k = m then (s.lamp k).phase else 0 } := by
  unfold State.relamp
  split
  · exact (setLamp_self s k).symm
  · rfl

/-- The lamp of a seat that enters another state than FAULT. -/
def enteredLamp (s : State) (k : Fin 4) : Lamp where
  mode := (s.lamp k).mode
  phase := if s.effectiveLamp k = (if (s.prompt k).isOpen then .fast else (s.lamp k).mode) then (s.lamp k).phase else 0

theorem setRecord_lamp (r : SeatRecord) : (s.setRecord k r).lamp k = s.lamp k := by simp

theorem ite_eq_comm (a b : LampMode) (n m : Nat) : (if a = b then n else m) = if b = a then n else m := by
  simp only [eq_comm]

theorem moveSeat_eq {st : SeatState} (hst : st ≠ .fault) (d : Option RackTime) :
    s.moveSeat k st d = (s.setRecord k ((s.record k).enter st d)).setLamp k (enteredLamp s k) := by
  have hmode : (s.setRecord k ((s.record k).enter st d)).effectiveLamp k =
      if (s.prompt k).isOpen then .fast else (s.lamp k).mode := by
    have hstate : ((s.setRecord k ((s.record k).enter st d)).record k).state ≠ .fault := by
      rw [record_setRecord_same]
      exact hst
    rw [State.effectiveLamp, if_neg hstate]
    simp
  rw [State.moveSeat, relamp_eq, hmode, setRecord_lamp]
  exact congrArg (fun n => State.setLamp _ k { mode := (s.lamp k).mode, phase := n }) (ite_eq_comm _ _ _ _)

/-- Settles O22: the record enters the state, the lamp follows its effective mode, and the notice is posted. -/
theorem enteringASeatState : Obligations.EnteringASeatState := by
  intro s k st d n hst
  have hrecord : (s.enterState k st d n).record k = (s.record k).enter st d :=
    congrArg Seat.record (enterState_seat_same st d n)
  have hmoved := moveSeat_eq (s := s) (k := k) hst d
  have hplaced : (s.moveSeat k st d).record k = (s.record k).enter st d := by
    simp [State.moveSeat, State.record]
  have hnow : (s.moveSeat k st d).now = s.now := by simp [State.moveSeat]
  obtain ⟨a, b, hposted⟩ := postSeat_eq (s := s.moveSeat k st d) (k := k)
    ((s.moveSeat k st d).notice .seatState (some k) none ((s.moveSeat k st d).record k).state.code n)
  have hentered : s.enterState k st d n =
      { (s.setRecord k ((s.record k).enter st d)).setLamp k (enteredLamp s k) with portA := a, portB := b } := by
    rw [← hmoved]
    exact hposted
  have hlamp : (s.enterState k st d n).lamp k = enteredLamp s k := by
    rw [hentered]
    exact lamp_setLamp_same _ k _
  have hlampOther : ∀ j, j ≠ k → (s.enterState k st d n).lamp j = s.lamp j := fun j hj => by
    rw [hentered]
    exact lamp_setLamp_other _ k j _ hj
  refine ⟨hrecord, fun j => ?_, fun j hj => ?_, fun q => ?_, fun j => ?_, hlampOther, ?_, ?_, ?_⟩
  · by_cases hj : j = k
    · rw [hj, enterState_seat_same]
    · rw [enterState_seat_other _ _ _ hj]
  · exact congrArg Seat.record (enterState_seat_other _ _ _ hj)
  · refine (postSeat_port _ q).trans ?_
    rw [hplaced, State.notice, hnow, hmoved]
    simp [SeatRecord.enter, byteOf]
  · by_cases hj : j = k
    · rw [hj, hlamp]; rfl
    · rw [hlampOther j hj]
  · rw [hlamp]; rfl
  · rw [hentered]; rfl
  · rw [hentered]; rfl

/-! ### CLEAR_FAULT (R20) -/

/-- The deadline of the state CLEAR_FAULT chooses. -/
def clearedDeadline (s : State) (k : Fin 4) : Option RackTime :=
  if (s.record k).clearedState = .unclamping then some s.unclampDeadline else none

theorem clearedState_vacant {r : SeatRecord} (h : r.present.level = false) : r.clearedState = .vacant := by
  rw [SeatRecord.clearedState, h]

theorem clearedState_closed {r : SeatRecord} (h : r.present.level = true) (hc : r.confirm.level = true) :
    r.clearedState = if r.actuator = .closed then .clamped else .unclamping := by
  rw [SeatRecord.clearedState, h, hc]
  cases r.actuator <;> rfl

theorem clearedState_loaded {r : SeatRecord} (h : r.present.level = true) (hc : r.confirm.level = false) :
    r.clearedState = .loaded := by
  rw [SeatRecord.clearedState, h, hc]

theorem clearedState_fields (r : SeatRecord) : r.clearedState ≠ .fault ∧ r.clearedState.supply = .off ∧
    r.clearedState.actuator = if r.clearedState = .clamped then .closed else .open := by
  unfold SeatRecord.clearedState
  split <;> exact ⟨nofun, rfl, rfl⟩

/-- Settles O26: the ownership and the state are checked, and the levels and the actuator choose the next state. -/
theorem clearFaultChoosesState : Obligations.ClearFaultChoosesState := by
  refine fun p k s h => ⟨fun ho => freeIndex_refused h ho _, fun ho hk => (freeIndex_taken ho _).trans
    (require_refused h (decide_eq_false hk) _ _), fun ho hk => ?_⟩
  obtain ⟨hfault, hsupply, hactuator⟩ := clearedState_fields (s.record k)
  obtain ⟨hrecord, -, -, hport, -⟩ :=
    enteringASeatState s k (s.record k).clearedState (clearedDeadline s k) none hfault
  refine ⟨(s.record k).clearedState, clearedDeadline s k, (freeIndex_taken ho _).trans
    ((require_taken (decide_eq_true hk) _ _).trans (command_taken_pair h _ _ _)), fun hv => ?_, fun hv hc ha => ?_,
    fun hv hc ha => ?_, fun hv hc => ?_, ?_, by rw [enterState_seat_same], fun q hq => ?_⟩
  · simp [clearedDeadline, clearedState_vacant hv]
  · simp [clearedDeadline, clearedState_closed hv hc, ha]
  · simp [clearedDeadline, clearedState_closed hv hc, ha, State.unclampDeadline]
  · simp [clearedDeadline, clearedState_loaded hv hc]
  · rw [hrecord, hsupply, hactuator]
  · rw [hport q, if_neg ?_]
    rcases hq with hq | hq
    · exact ne_otherPort hq
    · simp [hq]

/-! ### Raw changes and keys (R3, R158) -/

theorem exec_keyPress_loading {a : YesNo} (hp : s.pressReady (.answer k a) = true) (hr : s.isReady = false) :
    exec (.keyPress k a) s = .next (s.settleKey (.answer k a)) := by
  change whenDue s (s.pressReady (.answer k a)) (State.afterLoad _ _) = _
  rw [hp, whenDue_true, State.afterLoad, settleKey_isReady, hr, if_neg Bool.false_ne_true]

/-- The debounced level a press or a release takes is the raw level of the pin. -/
theorem settleKey_eq (y : Key) {b : Bool} (h : (s.key y).raw = b) :
    s.settleKey y = s.setKey y { s.key y with level := b } := by
  subst h
  rfl

/-- Settles O28: raw changes are noted, presses and releases take the level, and a press beside a closed prompt posts. -/
theorem rawChangesAndKeyLevels : Obligations.RawChangesAndKeyLevels := by
  refine ⟨fun s active => ⟨fun _ _ => rfl, fun _ => rfl⟩, fun s k a => ⟨fun hp hr => ?_, fun hp hr hopen => ?_,
    fun y hy => ?_⟩⟩
  · have hraw : (s.key (.answer k a)).raw = true := by
      simp only [State.pressReady, Bool.and_eq_true] at hp
      exact hp.1
    rw [exec_keyPress_loading hp hr, settleKey_eq _ hraw]
  · have hraw : (s.key (.answer k a)).raw = true := by
      simp only [State.pressReady, Bool.and_eq_true] at hp
      exact hp.1
    have hclosed : ¬ ((s.settleKey (.answer k a)).prompt k).isOpen = true := by
      rw [(settleKey_keeps _ k).2, hopen]
      decide
    rw [exec_keyPress hp hr, State.keyPressed, if_neg hclosed, State.notice, settleKey_eq _ hraw]
    cases a <;> simp [yesNoCode]
  · have hraw : (s.key y).raw = false := by
      simp only [State.releaseReady, Bool.and_eq_true, Bool.not_eq_true'] at hy
      exact hy.1
    change whenDue s (s.releaseReady y) _ = _
    rw [hy, whenDue_true, settleKey_eq _ hraw]

/-! ### Levels of the sensors (R4 to R6, R22) -/

/-- A level event that is due: the level is taken, and after the load the seat follows it. -/
theorem levelEvent_due {due : Bool} {v w : State} (hdue : due = true) :
    (v.isReady = false → whenDue s due (v.afterLoad w) = .next v) ∧
    (v.isReady = true → whenDue s due (v.afterLoad w) = .next w) := by
  rw [hdue, whenDue_true]
  unfold State.afterLoad
  exact ⟨fun h => by rw [h]; rfl, fun h => by rw [h]; rfl⟩

/-- Settles O29, by the level and the state of the seat. -/
theorem presentLevelActs : Obligations.PresentLevelActs := by
  intro s k hdue u hu
  have hrec : u.record k =
      { s.record k with present := { (s.record k).present with level := (s.record k).present.raw } } :=
    hu ▸ record_setRecord_same s k _
  have hready : u.isReady = s.isReady := by simp [hu]
  have hqueue : (u.seat k).queue = (s.seat k).queue := by simp [hu]
  have hexec : exec (.presentLevelChange k) s =
      whenDue s ((s.record k).present.ready s.clock) (u.afterLoad (u.presentChanged k)) := by rw [hu]; rfl
  obtain ⟨hloading, hloaded⟩ := levelEvent_due (s := s) (v := u) (w := u.presentChanged k) hdue
  rw [hexec]
  refine ⟨fun hr => hloading (hready.trans hr), fun hr => (hloaded (hready.trans hr)).trans ?_⟩
  unfold State.presentChanged State.vacate
  rw [hrec, hqueue]
  dsimp only
  generalize (s.record k).present.raw = level
  generalize (s.record k).state = st
  cases level <;> cases st <;> rfl

/-- Settles O30, by the level and the state of the seat; the CLAMP that finds the confirm closed is one that is taken. -/
theorem confirmLevelActs : Obligations.ConfirmLevelActs := by
  refine fun s k => ⟨fun hdue u hu => ?_, fun p h ho hk hc he hs => ?_⟩
  · have hrec : u.record k =
        { s.record k with confirm := { (s.record k).confirm with level := (s.record k).confirm.raw } } :=
      hu ▸ record_setRecord_same s k _
    have hready : u.isReady = s.isReady := by simp [hu]
    have hqueue : (u.seat k).queue = (s.seat k).queue := by simp [hu]
    have hexec : exec (.confirmLevelChange k) s =
        whenDue s ((s.record k).confirm.ready s.clock) (u.afterLoad (u.confirmChanged k)) := by rw [hu]; rfl
    obtain ⟨hloading, hloaded⟩ := levelEvent_due (s := s) (v := u) (w := u.confirmChanged k) hdue
    rw [hexec]
    refine ⟨fun hr => hloading (hready.trans hr), fun hr => (hloaded (hready.trans hr)).trans ?_⟩
    unfold State.confirmChanged State.vacate
    rw [hrec, hqueue]
    dsimp only
    generalize (s.record k).confirm.raw = level
    generalize (s.record k).present.level = present
    generalize (s.record k).state = st
    cases level <;> cases st <;> cases present <;> rfl
  · rw [clamp_taken h ho hk he hs, hc]
    rfl

/-! ### Trip and clamp timers (R6 to R8) -/

theorem abortRunning_idle (hr : (s.seat k).running = none) (c : Cause) : s.abortRunning k c = s := by
  simp only [State.abortRunning, hr]

/-- The record of a seat whose step is aborted: its snapshot is taken (R44, R46). -/
theorem abortRunning_record {r : Running} (hr : (s.seat k).running = some r) (c : Cause) :
    (s.abortRunning k c).record k = { s.record k with snapshot := some (s.snapshotOf k r c) } := by
  obtain ⟨hrec, -⟩ := aborting_seat (s := s) (k := k) r c
  rw [abortRunning_eq hr, ← hrec]
  simp [State.clearRunning, State.recordResult, State.record]

/-- What entering FAULT from outside FAULT does to the record, but for the snapshot of a step it aborts (R8). -/
theorem faultSeat_record (hf : (s.record k).state ≠ .fault) (c : Cause) : ∃ x,
    (s.faultSeat k c).record k = { (s.record k).enterFault c with snapshot := x } := by
  by_cases ht : (s.record k).state = .testing
  · obtain ⟨hkept, -⟩ := faultSeat_testing_kept ht c
    obtain ⟨hleft, -⟩ := leaveTesting_untouched (s := s.abortRunning k c) (k := k) k
    have hentered : (toFault ((s.abortRunning k c).leaveTesting k) k c).record k =
        ((s.abortRunning k c).record k).enterFault c := by
      rw [State.record, toFault_seat, ← hleft]
    rw [hkept, hentered]
    cases hr : (s.seat k).running with
    | none => exact ⟨(s.record k).snapshot, by rw [abortRunning_idle hr]; rfl⟩
    | some r => exact ⟨some (s.snapshotOf k r c), by rw [abortRunning_record hr]; rfl⟩
  · rw [faultSeat_idle hf ht, State.record, toFault_seat]
    exact ⟨_, rfl⟩

theorem deadlineReady_of {st : SeatState} {x : RackTime} (hk : (s.record k).state = st)
    (hd : (s.record k).deadline = some x) (hx : msReached s.now x = true) : s.deadlineReady k st = true := by
  simp [State.deadlineReady, hk, hd, hx]

/-- Settles O31: a trip by the level and the state of the seat, a clamp timer by the seat's state and deadline. -/
theorem tripLevelAndClampTimers : Obligations.TripLevelAndClampTimers := by
  refine ⟨fun s k => ⟨fun hdue u hu => ?_, fun p h ho ht => ?_⟩, fun s k x hd hx => ⟨fun hk => ?_, fun hk => ?_⟩⟩
  · have hrec : u.record k = { s.record k with trip := { (s.record k).trip with level := (s.record k).trip.raw } } :=
      hu ▸ record_setRecord_same s k _
    have hready : u.isReady = s.isReady := by simp [hu]
    have hexec : exec (.tripLevelChange k) s =
        whenDue s ((s.record k).trip.ready s.clock) (u.afterLoad (u.tripChanged k)) := by rw [hu]; rfl
    obtain ⟨hloading, hloaded⟩ := levelEvent_due (s := s) (v := u) (w := u.tripChanged k) hdue
    rw [hexec]
    refine ⟨fun hr => hloading (hready.trans hr), fun hr => (hloaded (hready.trans hr)).trans ?_, fun hf => ?_⟩
    · unfold State.tripChanged
      rw [hrec]
      dsimp only
      generalize (s.record k).trip.raw = level
      generalize (s.record k).state = st
      cases level <;> cases st <;> rfl
    · obtain ⟨y, hfault⟩ := faultSeat_record (s := u) (k := k) (by rw [hrec]; exact hf) .supplyTrip
      rw [hfault]
      exact ⟨rfl, rfl⟩
  · exact (ownerIndex_taken ho _).trans (require_refused h (by simp [ht]) _ _)
  · obtain ⟨y, hfault⟩ := faultSeat_record (s := s) (k := k) (by rw [hk]; decide) .clampTimeout
    refine ⟨?_, by rw [hfault]; rfl, by rw [hfault]; rfl⟩
    change whenDue s (s.deadlineReady k .clamping) _ = _
    rw [deadlineReady_of hk hd hx, whenDue_true]
  · obtain ⟨y, hfault⟩ := faultSeat_record (s := s) (k := k) (by rw [hk]; decide) .unclampTimeout
    refine ⟨?_, by rw [hfault]; rfl⟩
    change whenDue s (s.deadlineReady k .unclamping) _ = _
    rw [deadlineReady_of hk hd hx, whenDue_true]

end Steps
end Machine
end Sys2Proof
end

section
/-! What leaving TESTING frees (R9, R99), and a seat that is halted (R18, R23, R44 to R46). -/

namespace Sys2Proof
namespace Machine
namespace Steps

variable {s t u : State} {k : Fin 4} {p : Port}

/-! ### Leaving TESTING touches no other seat (R9) -/

/-- Nothing but the outputs of seat `k` differs between the seats. -/
structure OutputsMoved (k : Fin 4) (s t : State) : Prop where
  others : ∀ j, j ≠ k → t.seat j = s.seat j
  same : { t.seat k with outputs := (s.seat k).outputs } = s.seat k

theorem OutputsMoved.refl (k : Fin 4) (s : State) : OutputsMoved k s s := ⟨fun _ _ => rfl, rfl⟩

theorem OutputsMoved.trans (h : OutputsMoved k s t) (g : OutputsMoved k t u) : OutputsMoved k s u :=
  ⟨fun j hj => (g.others j hj).trans (h.others j hj),
    (congrArg (fun x : Seat => { x with outputs := (s.seat k).outputs }) g.same).trans h.same⟩

theorem outputsMoved_of_seats (h : ∀ j, t.seat j = s.seat j) : OutputsMoved k s t :=
  ⟨fun j _ => h j, by rw [h]⟩

theorem outputsMoved_setOutputs (k : Fin 4) (o : Outputs) : OutputsMoved k s (s.setOutputs k o) :=
  ⟨fun j hj => by simp [hj], by simp⟩

theorem setChannel_seat (c : Fin 8) (x : Channel) (j : Fin 4) : (s.setChannel c x).seat j = s.seat j := by simp

/-- A channel of seat `k`, or of none, is freed: it rests at most an output of that seat (R69). -/
theorem freeChannel_moved {c : Fin 8} (hc : (s.channel c).seat = some k ∨ (s.channel c).seat = none) :
    OutputsMoved k s (s.freeChannel c) := by
  have hunused : ∀ j, (s.unuseBy (s.channel c)).seat j = s.seat j := fun j => by
    unfold State.unuseBy State.unuseProgram
    split <;> simp
  refine (outputsMoved_of_seats hunused).trans (OutputsMoved.trans
    (t := (s.unuseBy (s.channel c)).restTarget (s.channel c)) ?_ (outputsMoved_of_seats (setChannel_seat c _)))
  unfold State.restTarget
  split
  · next i x hseat _ =>
    rcases hc with hc | hc
    · rw [hseat, Option.some.injEq] at hc
      exact hc ▸ outputsMoved_setOutputs i _
    · exact nomatch hseat.symm.trans hc
  · exact .refl k _

theorem freeChannels_moved (cs : List (Fin 8))
    (hcs : ∀ c ∈ cs, (s.channel c).seat = some k ∨ (s.channel c).seat = none) :
    OutputsMoved k s (s.freeChannels cs) := by
  unfold State.freeChannels
  induction cs generalizing s with
  | nil => exact .refl k s
  | cons c cs ih =>
    refine (freeChannel_moved (hcs c (.head cs))).trans (ih fun d hd => ?_)
    rw [freeChannel_channel]
    split
    · exact .inr rfl
    · exact hcs d (.tail c hd)

theorem channelsOf_seat {c : Fin 8} (h : c ∈ s.channelsOf k) : (s.channel c).seat = some k := by
  simp only [State.channelsOf, List.mem_filter, Channel.onSeat, Bool.and_eq_true, decide_eq_true_eq] at h
  exact h.2.2

/-- The frame schedules of seat `k` end and the seat leaves the wait list. -/
theorem unscheduled_seats (s : State) (k : Fin 4) : ∃ fs, (∀ f : Fin 8, fs[f] = (s.frame k f).unschedule) ∧
    ((s.unscheduleFrames k).unwait k).seat k = { s.seat k with frames := fs } ∧
    ∀ j, j ≠ k → ((s.unscheduleFrames k).unwait k).seat j = s.seat j := by
  obtain ⟨fs, heq, hfs⟩ := eachFrame_eq (s := s) (k := k) FrameSlot.unschedule
  have hseat : ∀ j, ((s.unscheduleFrames k).unwait k).seat j = (s.eachFrame k FrameSlot.unschedule).seat j :=
    (unwait_keeps k).1
  refine ⟨fs, hfs, ?_, fun j hj => ?_⟩
  · rw [hseat, heq, seat_setSeat_same]
  · rw [hseat, heq, seat_setSeat_other _ _ _ _ hj]

/-- The outputs of a seat that leaves TESTING go to rest and its frame schedules end; nothing else of a seat changes. -/
theorem leaveTesting_seats (s : State) (k : Fin 4) : ∃ fs, (∀ f : Fin 8, fs[f] = (s.frame k f).unschedule) ∧
    (s.leaveTesting k).seat k = { s.seat k with outputs := (s.seat k).outputs.restAll, frames := fs } ∧
    ∀ j, j ≠ k → (s.leaveTesting k).seat j = s.seat j := by
  have hmoved : OutputsMoved k s (((s.freeChannels (s.channelsOf k)).freeSlots (s.slotsOf k)).restOutputs k) :=
    ((freeChannels_moved (s.channelsOf k) fun c hc => .inl (channelsOf_seat hc)).trans
      (outputsMoved_of_seats (freeSlots_keeps (s.slotsOf k)).1)).trans (outputsMoved_setOutputs k _)
  have hrest := leaveTesting_outputs (s := s) (k := k)
  unfold State.leaveTesting at hrest ⊢
  generalize ((s.freeChannels (s.channelsOf k)).freeSlots (s.slotsOf k)).restOutputs k = v at hmoved hrest ⊢
  obtain ⟨hothers, hsame⟩ := hmoved
  obtain ⟨fs, hfs, hframes, hstay⟩ := unscheduled_seats v k
  rw [hframes] at hrest
  refine ⟨fs, fun f => ?_, ?_, fun j hj => (hstay j hj).trans (hothers j hj)⟩
  · rw [hfs, State.frame, State.frame, ← hsame]
  · rw [hframes, ← hrest, ← hsame]

/-- Settles O24. -/
theorem leavingTestingReleasesEverything : Obligations.LeavingTestingReleasesEverything := by
  intro s k
  obtain ⟨fs, hfs, hsame, hothers⟩ := leaveTesting_seats s k
  refine ⟨fun c => ?_, fun m => ?_, leaveTesting_outputs, fun f => ?_, by rw [hsame], leaveTesting_waitList, hothers,
    (leaveTesting_untouched k).1, by rw [hsame]⟩
  · rw [leaveTesting_channel]
    split
    · rfl
    · exact Bool.eq_false_iff.mpr ‹_›
  · rw [leaveTesting_slot]
    split
    · exact nofun
    · assumption
  · rw [State.frame, hsame]
    exact hfs f

/-! ### A seat that is halted (R18, R23, R44 to R46) -/

/-- The entry of a step aborted with cause `c`, and the snapshot taken as it ends. -/
structure AbortEntry (s : State) (r : Running) (c : Cause) (e : ResultEntry) : Prop where
  stepId : e.stepId = r.step.id
  outcome : e.outcome = .aborted
  deciding : e.deciding = .noPart
  cause : e.cause = some c
  start : e.start = r.start
  elapsed : e.elapsed = s.now - r.start

/-- Seat `k` went to HOLD with its queue kept, and its running step, if there was one, is recorded as aborted. -/
structure HaltedFor (k : Fin 4) (c : Cause) (s t : State) : Prop where
  record : t.record k = { (s.record k).enter .hold none with
    snapshot := (s.seat k).running.elim (s.record k).snapshot fun r => some (s.snapshotOf k r c) }
  queue : (t.seat k).queue = (s.seat k).queue
  running : (t.seat k).running = none
  idle : (s.seat k).running = none → (t.seat k).results = (s.seat k).results
  entry : ∀ r, (s.seat k).running = some r → ∃ e, (t.seat k).results = (s.seat k).results.append e ∧ AbortEntry s r c e

theorem haltSeat_haltedFor (s : State) (k : Fin 4) (c : Cause) : HaltedFor k c s (s.haltSeat k c) := by
  have hhalt : s.haltSeat k c = (s.abortRunning k c).leaveFor k .hold none := rfl
  obtain ⟨lrec, lqueue, lrun, lres, -⟩ := leaveFor_seat (s := s.abortRunning k c) (k := k) .hold none
  rw [← hhalt] at lrec lqueue lrun lres
  cases hr : (s.seat k).running with
  | none =>
    have hsame := abortRunning_idle hr c
    refine ⟨?_, ?_, ?_, fun _ => ?_, fun r h => (nomatch hr.symm.trans h)⟩
    · rw [lrec, hsame, hr, Option.elim_none]
      rfl
    · rw [lqueue, hsame]
    · rw [lrun, hsame, hr]
    · rw [lres, hsame]
  | some r =>
    obtain ⟨-, aqueue, arun, -, e, ares, hid, hout, hdec, hcause, hstart, helapsed⟩ := abortRunning_seat (c := c) hr
    refine ⟨?_, lqueue.trans aqueue, lrun.trans arun, fun h => (nomatch hr.symm.trans h), fun r' hr' => ?_⟩
    · rw [lrec, abortRunning_record hr, hr, Option.elim_some]
      rfl
    · obtain rfl : r = r' := Option.some.inj (hr.symm.trans hr')
      exact ⟨e, lres.trans ares, hid, hout, hdec, hcause, hstart, helapsed⟩

theorem HaltedFor.kept {c : Cause} (h : HaltedFor k c s t) (g : SeatKept k t u) : HaltedFor k c s u := by
  obtain ⟨hrec, hqueue, hrun, hres⟩ := g
  exact ⟨hrec.trans h.record, hqueue.trans h.queue, hrun.trans h.running, fun hr => hres.trans (h.idle hr),
    fun r hr => (h.entry r hr).imp fun e he => ⟨hres.trans he.1, he.2⟩⟩

/-- Settles O25: the seat is halted, and the arbiter after it starts steps of other seats. -/
theorem stopSeatHoldsAndRecords : Obligations.StopSeatHoldsAndRecords := by
  refine fun p k s h ho => ⟨fun hk => (ownerIndex_taken ho _).trans (require_refused h (decide_eq_false hk) _ _),
    fun hk => ?_⟩
  have w : Works (· ≠ k) (s.haltSeat k .stopSeat) (s.haltSeat k .stopSeat).arbitrate :=
    sequence_after_leaveFor .hold none (by decide) _
  obtain ⟨hrecord, hqueue, hrunning, hidle, hentry⟩ := (haltSeat_haltedFor s k .stopSeat).kept (others_keep w)
  have hwait : k ∉ (s.haltSeat k .stopSeat).waitList := by
    rw [State.haltSeat, leaveFor_waitList]
    simp
  refine ⟨(s.haltSeat k .stopSeat).arbitrate, (ownerIndex_taken ho _).trans
    ((require_taken (decide_eq_true hk) _ _).trans (command_taken_pair h _ _ _)), by rw [hrecord]; rfl,
    by rw [hrecord]; rfl, by rw [hrecord]; rfl, by rw [hrecord]; exact ho, hqueue, hrunning,
    not_waiting_of_others w hwait, ?_, fun hr => ⟨hidle hr, by rw [hrecord, hr]; rfl⟩, fun r hr => ⟨?_, ?_⟩⟩
  · exact haltSeat_arbitrate_pattern k .stopSeat
  · rw [hrecord, hr]
    rfl
  · obtain ⟨e, hres, he⟩ := hentry r hr
    exact ⟨e, hres, he.stepId, he.outcome, he.deciding, he.cause, he.start, he.elapsed⟩

end Steps
end Machine
end Sys2Proof
end

section
/-! Starts and ends of other seats' steps leave alone a seat that holds no channel and whose outputs are at rest (R31,
R66, R86, R90). -/

namespace Sys2Proof
namespace Machine
namespace Steps

variable {s t u : State} {k j : Fin 4} {c : Fin 8} {o : Outputs}

/-! ### Triggers and moves bind nothing (R66, R70, R74) -/

/-- Every channel stays bound to the seat it is bound to, and FREE when it is FREE. -/
def SameBindings (s t : State) : Prop := ∀ c i, (t.channel c).onSeat i = (s.channel c).onSeat i

theorem SameBindings.refl (s : State) : SameBindings s s := fun _ _ => rfl

theorem SameBindings.trans (h : SameBindings s t) (g : SameBindings t u) : SameBindings s u :=
  fun c i => (g c i).trans (h c i)

theorem sameBindings_of_channels (h : ∀ c, t.channel c = s.channel c) : SameBindings s t := fun c i => by rw [h]

theorem sameBindings_setChannel (c : Fin 8) {x : Channel} (h : ∀ i, x.onSeat i = (s.channel c).onSeat i) :
    SameBindings s (s.setChannel c x) := fun d i => by
  rw [channel_setChannel]
  split
  · next hd => rw [h, hd]
  · rfl

theorem sameBindings_foldl {α : Type} {f : State → α → State} (hf : ∀ v a, SameBindings v (f v a)) (xs : List α)
    (s : State) : SameBindings s (xs.foldl f s) := by
  induction xs generalizing s with
  | nil => exact .refl s
  | cons a xs ih => exact (hf s a).trans (ih (f s a))

/-- A change of state between two bound states. -/
theorem onSeat_of_bound {x y : Channel} (hx : x.state ≠ .free) (hy : y.state ≠ .free) (hs : x.seat = y.seat)
    (i : Fin 4) : x.onSeat i = y.onSeat i := by
  rw [Channel.onSeat, Channel.onSeat, hs, bne_iff_ne.mpr hx, bne_iff_ne.mpr hy]

theorem request_onSeat (x : Channel) (b : Nat) (i : Fin 4) : (x.request b).onSeat i = x.onSeat i := by
  unfold Channel.request
  split
  · exact onSeat_of_bound (by nofun) (takesTrigger_bound ‹_›) (by rfl) i
  · rfl

theorem sameBindings_trigger (c : Fin 8) : SameBindings s (s.trigger c) := by
  unfold State.trigger
  split
  · exact .refl s
  · exact sameBindings_setChannel c fun i => request_onSeat _ _ i

theorem sameBindings_chainEnd (c : Fin 8) (i : Fin 4) : SameBindings s (s.chainEnd c i) := by
  have hchain : ∀ e, SameBindings s (s.chainFrom i e) := fun e => by
    refine sameBindings_foldl (fun v d => ?_) ids8 s
    split
    · exact sameBindings_trigger d
    · exact .refl v
  unfold State.chainEnd
  split
  · split
    · exact hchain _
    · exact .refl s
  · exact .refl s

theorem sameBindings_endTransaction (i : Fin 4) (p : Program) (hc : (s.channel c).state ≠ .free) :
    SameBindings s (s.endTransaction c i p) := by
  have hchained := (sameBindings_setChannel (s := s) c (x := (s.channel c).reload p.count) fun _ => rfl).trans
    (sameBindings_chainEnd c i)
  unfold State.endTransaction
  dsimp only
  split
  · refine hchained.trans (sameBindings_setChannel c (onSeat_of_bound (by nofun) ?_ (by rfl)))
    rw [ne_eq, chainEnd_state, channel_setChannel_same]
    exact hc
  · exact hchained

theorem deliver_channel (i : Fin 4) (x : Target) (n : Nat) (w : Word) (d : Fin 8) :
    (s.deliver i x n w).channel d = s.channel d := by
  unfold State.deliver
  split <;> simp

theorem sameBindings_makeMove (i : Fin 4) (x : Target) (p : Program) (hc : (s.channel c).state ≠ .free) :
    SameBindings s (s.makeMove c i x p) := by
  unfold State.makeMove
  dsimp only
  have hdelivered : SameBindings s
      ((s.deliver i x (s.channel c).made (Memory.read s.pattern (s.channel c).address.toNat)).setChannel c
        ((s.channel c).counted p)) :=
    (sameBindings_of_channels (deliver_channel i x _ _)).trans (sameBindings_setChannel c fun i => by
      rw [deliver_channel]
      exact onSeat_of_bound (by nofun) hc (by rfl) i)
  have hcounted : (((s.deliver i x (s.channel c).made (Memory.read s.pattern (s.channel c).address.toNat)).setChannel c
      ((s.channel c).counted p)).channel c).state ≠ .free := by
    rw [channel_setChannel_same]
    nofun
  generalize (s.deliver i x (s.channel c).made (Memory.read s.pattern (s.channel c).address.toNat)).setChannel c
    ((s.channel c).counted p) = v at hdelivered hcounted ⊢
  have hmark : ∀ d, (if ((s.channel c).counted p).remaining = p.mark then v.raiseMark c i p else v).channel d =
      v.channel d := fun d => by
    split
    · exact raiseMark_channel c i p d
    · rfl
  have hmarked := hdelivered.trans (sameBindings_of_channels hmark)
  have hbound := (congrArg Channel.state (hmark c)).trans_ne hcounted
  generalize (if ((s.channel c).counted p).remaining = p.mark then v.raiseMark c i p else v) = w at hmarked hbound ⊢
  have hended : SameBindings s (if ((s.channel c).counted p).remaining = 0 then w.endTransaction c i p else w) := by
    split
    · exact hmarked.trans (sameBindings_endTransaction i p hbound)
    · exact hmarked
  exact hended.trans (sameBindings_setChannel c fun _ => rfl)

theorem sameBindings_moveOnce (c : Fin 8) : SameBindings s (s.moveOnce c).1 := by
  unfold State.moveOnce
  split
  · exact .refl s
  · next hc =>
    split
    · split
      · exact sameBindings_makeMove _ _ _ hc
      · exact sameBindings_setChannel c fun _ => rfl
    · exact .refl s

theorem sameBindings_blockEnd (r : State × Bool) (c : Fin 8) {st : ChannelState} (hst : st ≠ .free) :
    SameBindings r.1 (State.blockEnd r c st).1 := by
  unfold State.blockEnd
  split
  · refine sameBindings_setChannel c fun i => ?_
    unfold Channel.unmoved
    split
    · next h => exact onSeat_of_bound (by exact hst) (by rw [h.1]; decide) (by rfl) i
    · rfl
  · exact .refl r.1

theorem sameBindings_takeTimer (c : Fin 8) : SameBindings s (s.takeTimer c).1 := by
  have hrearmed : SameBindings s (s.setChannel c (s.channel c).rearm) := sameBindings_setChannel c fun i => by
    unfold Channel.rearm
    split <;> rfl
  unfold State.takeTimer State.triggerAndMove
  split
  · next h =>
    exact hrearmed.trans (((sameBindings_trigger c).trans (sameBindings_moveOnce c)).trans
      (sameBindings_blockEnd _ c (takesTrigger_bound h)))
  · exact hrearmed

/-! ### A move reaches the seat of its channel alone (R74, R76) -/

theorem deliver_seat_other {i : Fin 4} (h : k ≠ i) (x : Target) (n : Nat) (w : Word) :
    (s.deliver i x n w).seat k = s.seat k := by
  unfold State.deliver
  split
  · exact seat_setSeat_other _ _ _ _ h
  · exact seat_setOutputs_other _ _ _ _ h

theorem trigger_seat (c : Fin 8) (i : Fin 4) : (s.trigger c).seat i = s.seat i := by
  obtain ⟨cs, heq⟩ := trigger_eq s c
  rw [heq]
  rfl

theorem chainEnd_seat (c : Fin 8) (i : Fin 4) : (s.chainEnd c i).seat k = s.seat k := by
  have hone : ∀ (v : State) (e : Fin 3) (d : Fin 8), (if (v.channel d).servesStep i && (v.channel d).trigger =
      some (.chain e) then v.trigger d else v).seat k = v.seat k := fun v e d => by
    split
    · exact trigger_seat d k
    · rfl
  have hchain : ∀ (e : Fin 3) (xs : List (Fin 8)) (v : State), (xs.foldl (fun v d => if (v.channel d).servesStep i &&
      (v.channel d).trigger = some (.chain e) then v.trigger d else v) v).seat k = v.seat k := by
    intro e xs
    induction xs with
    | nil => exact fun _ => rfl
    | cons d xs ih => exact fun v => (ih _).trans (hone v e d)
  unfold State.chainEnd
  split
  · split
    · exact hchain _ ids8 s
    · rfl
  · rfl

theorem endTransaction_seat (c : Fin 8) (i : Fin 4) (p : Program) : (s.endTransaction c i p).seat k = s.seat k := by
  unfold State.endTransaction
  dsimp only
  split
  · rw [setChannel_seat, chainEnd_seat, setChannel_seat]
  · rw [chainEnd_seat, setChannel_seat]

theorem makeMove_seat_other {i : Fin 4} (h : k ≠ i) (x : Target) (p : Program) :
    (s.makeMove c i x p).seat k = s.seat k := by
  unfold State.makeMove
  dsimp only
  rw [setChannel_seat]
  split
  · rw [endTransaction_seat]
    split
    · rw [raiseMark_seat, setChannel_seat, deliver_seat_other h]
    · rw [setChannel_seat, deliver_seat_other h]
  · split
    · rw [raiseMark_seat, setChannel_seat, deliver_seat_other h]
    · rw [setChannel_seat, deliver_seat_other h]

theorem moveOnce_seat_other (hc : (s.channel c).onSeat k = false) : (s.moveOnce c).1.seat k = s.seat k := by
  unfold State.moveOnce
  split
  · rfl
  · next hfree =>
    split
    · next i x p hseat _ _ =>
      have hik : k ≠ i := by
        rintro rfl
        simp [Channel.onSeat, hfree, hseat] at hc
      split
      · exact makeMove_seat_other hik x p
      · exact setChannel_seat c _ k
    · rfl

theorem takeTimer_seat_other (hc : (s.channel c).onSeat k = false) : (s.takeTimer c).1.seat k = s.seat k := by
  have hrearmed : SameBindings s (s.setChannel c (s.channel c).rearm) := sameBindings_setChannel c fun i => by
    unfold Channel.rearm
    split <;> rfl
  have hseat : (s.setChannel c (s.channel c).rearm).seat k = s.seat k := setChannel_seat c _ k
  unfold State.takeTimer State.triggerAndMove State.blockEnd
  generalize s.setChannel c (s.channel c).rearm = v at hrearmed hseat ⊢
  have hmoved : ((v.trigger c).moveOnce c).1.seat k = s.seat k := by
    rw [moveOnce_seat_other ((sameBindings_trigger c c k).trans ((hrearmed c k).trans hc)), trigger_seat, hseat]
  split
  · split
    · rw [setChannel_seat, hmoved]
    · exact hmoved
  · exact hseat

/-! ### A seat at rest (R66, R90) -/

/-- No channel is bound to seat `k`, and its outputs are `o`, at rest. -/
structure Resting (k : Fin 4) (o : Outputs) (s : State) : Prop where
  unbound : ∀ c, (s.channel c).onSeat k = false
  outputs : (s.seat k).outputs = o
  rest : o = o.restAll

theorem Resting.of_bindings (h : Resting k o s) (hb : SameBindings s t)
    (ho : (t.seat k).outputs = (s.seat k).outputs) : Resting k o t :=
  ⟨fun c => (hb c k).trans (h.unbound c), ho.trans h.outputs, h.rest⟩

theorem Resting.of_same (h : Resting k o s) (hc : ∀ c, t.channel c = s.channel c)
    (ho : (t.seat k).outputs = (s.seat k).outputs) : Resting k o t := h.of_bindings (sameBindings_of_channels hc) ho

theorem Resting.freeChannel (h : Resting k o s) (c : Fin 8) : Resting k o (s.freeChannel c) where
  unbound d := by
    rw [freeChannel_channel]
    split
    · rfl
    · exact h.unbound d
  outputs := by
    obtain ⟨x, hx, -, hstays⟩ := freeChannel_outputs (s := s) c k
    have hrest : (s.seat k).outputs = (s.seat k).outputs.restAll := by
      rw [h.outputs]
      exact h.rest
    rw [hx, hstays hrest, h.outputs]
  rest := h.rest

theorem resting_foldl {α : Type} {f : State → α → State} (hf : ∀ v a, Resting k o v → Resting k o (f v a))
    (xs : List α) (h : Resting k o s) : Resting k o (xs.foldl f s) := by
  induction xs generalizing s with
  | nil => exact h
  | cons a xs ih => exact ih (hf s a h)

theorem Resting.freeChannels (h : Resting k o s) (cs : List (Fin 8)) : Resting k o (s.freeChannels cs) :=
  resting_foldl (fun _ c hv => hv.freeChannel c) cs h

theorem Resting.takeTimer (h : Resting k o s) (c : Fin 8) : Resting k o (s.takeTimer c).1 :=
  h.of_bindings (sameBindings_takeTimer c) (by rw [takeTimer_seat_other (h.unbound c)])

theorem Resting.firstTriggers (h : Resting k o s) (cs : List (Fin 8)) : Resting k o (s.firstTriggers cs).1 := by
  induction cs generalizing s with
  | nil => exact h
  | cons c cs ih =>
    unfold State.firstTriggers
    split
    · split
      · exact h.takeTimer c
      · exact ih (h.takeTimer c)
    · exact ih h

/-! ### The start of another seat's step (R32 to R35) -/

theorem editRunning_channel (i : Fin 4) (f : Running → Running) (d : Fin 8) :
    (s.editRunning i f).channel d = s.channel d := by
  unfold State.editRunning
  split <;> simp

theorem editRunning_outputs (i : Fin 4) (f : Running → Running) (d : Fin 4) :
    ((s.editRunning i f).seat d).outputs = (s.seat d).outputs := by
  unfold State.editRunning
  split
  · rfl
  · by_cases hd : d = i
    · subst hd; simp [State.setRunning]
    · rw [State.setRunning, seat_setSeat_other _ _ _ _ hd]

theorem Resting.editRunning (h : Resting k o s) (i : Fin 4) (f : Running → Running) : Resting k o (s.editRunning i f) :=
  h.of_same (editRunning_channel i f) (editRunning_outputs i f k)

/-- A channel is bound to another seat (R68). -/
theorem Resting.bindEntry (h : Resting k o s) (hj : j ≠ k) (x : Fin 3 × ChannelEntry) :
    Resting k o (bindEntry j s x) := by
  unfold Machine.bindEntry
  split
  · exact h
  · next c _ =>
    refine Resting.editRunning ?_ j _
    unfold State.bindChannel
    split
    · exact h
    · next p _ =>
      refine Resting.of_same (s := s.setChannel c (Channel.bound j x.1 x.2 p s.now)) ⟨fun d => ?_, ?_, h.rest⟩
        (by simp [State.useProgram]) (by simp [State.useProgram])
      · rw [channel_setChannel]
        split
        · simp [Channel.onSeat, Channel.bound, hj]
        · exact h.unbound d
      · rw [setChannel_seat]
        exact h.outputs

theorem Resting.bindMeasurement (h : Resting k o s) (n : Nat) (x : Fin 2 × Measurement) :
    Resting k o (bindMeasurement j n s x) := by
  unfold Machine.bindMeasurement
  split
  · exact h
  · next m _ =>
    obtain ⟨hseat, hchannel, -⟩ := bindSlot_keeps
      (s := s.editRunning j fun r => { r with slots := r.slots ++ [m] }) m j x s.now n
    exact (h.editRunning j _).of_same hchannel (by rw [hseat])

theorem Resting.bindStep (h : Resting k o s) (hj : j ≠ k) (st : Step) : Resting k o (s.bindStep j st) := by
  have hfreed : Resting k o (s.freeReplaced j st) := by
    unfold State.freeReplaced
    split
    · exact h
    · exact h.freeChannel _
  have hbound : Resting k o (((s.freeReplaced j st).bindEntries j st).bindMeasurements j st) :=
    resting_foldl (fun _ x hv => hv.bindMeasurement st.window x) _
      (resting_foldl (fun _ x hv => hv.bindEntry hj x) _ hfreed)
  unfold State.bindStep
  generalize ((s.freeReplaced j st).bindEntries j st).bindMeasurements j st = v at hbound ⊢
  have hwatched : Resting k o (v.startExpectation j st) := by
    unfold State.startExpectation
    split
    · exact hbound
    · exact hbound.of_same (by simp) (by simp [hj.symm])
  unfold State.startPrompt
  split
  · exact hwatched
  · exact hwatched.of_same (by simp) (by simp)

theorem recordResult_seat_other (h : k ≠ j) (e : ResultEntry) : (s.recordResult j e).seat k = s.seat k := by
  unfold State.recordResult
  simp [h]

theorem Resting.abortRunning (h : Resting k o s) (hj : j ≠ k) (e : Cause) : Resting k o (s.abortRunning j e) := by
  cases hr : (s.seat j).running with
  | none => rwa [abortRunning_idle hr]
  | some r =>
    have hnoted : Resting k o (s.setRecord j { s.record j with snapshot := some (s.snapshotOf j r e) }) :=
      h.of_same (by simp) (by simp [hj.symm])
    have haborting : Resting k o (aborting s j r e) := by
      refine (hnoted.freeChannels r.channels).of_same (fun d => ?_) ?_
      · simp [aborting, State.stopExpectation]
      · simp [aborting, State.stopExpectation, hj.symm]
    rw [abortRunning_eq hr]
    refine haborting.of_same (by simp [State.clearRunning]) ?_
    rw [State.clearRunning, State.setRunning, seat_setSeat_other _ _ _ _ hj.symm, recordResult_seat_other hj.symm]

theorem Resting.leaveFor (h : Resting k o s) (hj : j ≠ k) (st : SeatState) (n : Option Nat) :
    Resting k o (s.leaveFor j st n) where
  unbound d := by
    rw [leaveFor_channel]
    split
    · rfl
    · exact h.unbound d
  outputs := by
    obtain ⟨-, -, -, hothers⟩ := leaveTesting_seats s j
    rw [State.leaveFor, enterState_seat_other _ _ _ hj.symm, hothers k hj.symm]
    exact h.outputs
  rest := h.rest

theorem Resting.setQueue (h : Resting k o s) (hj : j ≠ k) (q : List Step) : Resting k o (s.setQueue j q) :=
  h.of_same (by simp) (by simp [hj.symm])

theorem Resting.settle (h : Resting k o s) (hj : j ≠ k) (x : StepOutcome) (p : FailPolicy) :
    Resting k o (s.settle j x p) := by
  unfold State.settle
  split
  · exact (h.setQueue hj []).leaveFor hj _ _
  · split
    · exact h.leaveFor hj _ _
    · exact h

theorem Resting.startTaken (h : Resting k o s) (hj : j ≠ k) (st : Step) : Resting k o (s.startTaken j st).1 := by
  unfold State.startTaken
  split
  · exact h.abortRunning hj _
  · split
    · exact h.abortRunning hj _
    · have htriggered := (h.bindStep hj st).firstTriggers ((s.bindStep j st).stepChannels j)
      dsimp only
      split
      · exact htriggered.abortRunning hj _
      · exact htriggered

theorem Resting.startHead (h : Resting k o s) (hj : j ≠ k) : Resting k o (s.startHead j).1 := by
  unfold State.startHead
  split
  · exact h
  · next st rest _ =>
    have htaken : Resting k o (s.takeHead j st rest) :=
      h.of_same (by simp [State.takeHead]) (by simp [State.takeHead, hj.symm])
    have hstarted := htaken.startTaken hj st
    dsimp only
    split
    · exact hstarted.settle hj _ _
    · exact hstarted

/-- The last stages of an event leave a seat at rest that has no head step to consider and does not wait (R28, R31). -/
theorem Resting.runTasks (n : Nat) (ts : List Task) (h : Resting k o s) (hc : s.considerable k = false)
    (hw : k ∉ s.waitList) : Resting k o (s.runTasks n ts) := by
  induction n generalizing s ts with
  | zero => exact h
  | succ n ih =>
    have hnext : ∀ (v : State) (us : List Task), Works (· ≠ k) s v → Resting k o v → Resting k o (v.runTasks n us) := by
      intro v us w hv
      obtain ⟨hrec, hqueue, hrun, -⟩ := others_keep w
      refine ih us hv ?_ (not_waiting_of_others w hw)
      rw [← Bool.not_eq_true, considerable_iff] at hc ⊢
      rw [hrec, hrun, hqueue]
      exact fun ⟨ht, hr, _, hq⟩ => hc ⟨ht, hr, hw, hq⟩
    match ts with
    | [] => exact h
    | .arbiter :: ts =>
      unfold State.runTasks
      split
      · exact hnext s ts (.refl _ s) h
      · next j ws hlist =>
        have hj : j ≠ k := fun e => hw (by rw [hlist, e]; exact List.mem_cons_self)
        have hwait : Works (· ≠ k) s { s with waitList := ws } :=
          works_waitList ws fun i hi => .inl (by rw [hlist]; exact List.mem_cons_of_mem _ hi)
        have hpopped : Resting k o { s with waitList := ws } := h.of_same (fun _ => rfl) rfl
        split
        · exact hnext _ _ (hwait.trans (works_startHead j hj)) (hpopped.startHead hj)
        · exact hnext s ts (.refl _ s) h
    | .consider j :: ts =>
      unfold State.runTasks
      split
      · next hconsider =>
        have hj : j ≠ k := fun e => by rw [e, hc] at hconsider; exact Bool.noConfusion hconsider
        split
        · exact hnext _ _ (works_startHead j hj) (h.startHead hj)
        · refine hnext _ _ (works_waitList _ fun i hi => ?_) (h.of_same (fun _ => rfl) rfl)
          rcases List.mem_append.mp hi with hi | hi
          · exact .inl hi
          · exact .inr (List.mem_singleton.mp hi ▸ hj)
      · exact hnext s ts (.refl _ s) h

theorem Resting.sequence (h : Resting k o s) (ts : List Task) (hs : (s.record k).state ≠ .testing)
    (hw : k ∉ s.waitList) : Resting k o (s.sequence ts) := h.runTasks _ ts (not_considerable_of_state hs) hw

theorem resting_leaveFor (s : State) (k : Fin 4) (st : SeatState) (n : Option Nat) :
    Resting k (s.seat k).outputs.restAll (s.leaveFor k st n) where
  unbound d := by
    rw [leaveFor_channel]
    split
    · rfl
    · exact Bool.eq_false_iff.mpr ‹_›
  outputs := (leaveFor_seat st n).2.2.2.2
  rest := rfl

end Steps
end Machine
end Sys2Proof
end

section
/-! Entering FAULT (R8), and an abort of the running step that follows its fail policy (R41, R43 to R45, R83). -/

namespace Sys2Proof
namespace Machine
namespace Steps

variable {s t u : State} {k : Fin 4} {p : Port}

/-! ### Entering FAULT (R8) -/

theorem faultActuator_eq (c : Cause) : c.faultActuator = if c = .supplyTrip then .closed else .open := by
  cases c <;> rfl

theorem toFault_port (k : Fin 4) (c : Cause) (q : Port) : (toFault s k c).port q =
    if (s.record k).owner = some (otherPort q) then s.port q
    else (s.port q).post { kind := .fault, level := 0, seat := some k, stepId := none, code := byteOf c.code,
                           count := some (s.seat k).queue.length, time := s.now } := by
  have howner : (((((s.setRecord k ((s.record k).enterFault c)).relamp k (s.effectiveLamp k)).restOutputs k).setQueue
      k []).record k).owner = (s.record k).owner := by
    simp [State.record, State.restOutputs, SeatRecord.enterFault]
  have hport : ((((s.setRecord k ((s.record k).enterFault c)).relamp k (s.effectiveLamp k)).restOutputs k).setQueue
      k []).port q = s.port q := by
    simp [State.restOutputs, relamp_eq]
  have hnow : ((((s.setRecord k ((s.record k).enterFault c)).relamp k (s.effectiveLamp k)).restOutputs k).setQueue
      k []).now = s.now := by
    simp [State.restOutputs]
  unfold toFault
  dsimp only
  rw [postSeat_port, howner, hport, State.notice, hnow]
  rfl

/-- The record of a seat that aborts its step, if one runs, takes the snapshot of that step. -/
theorem abortRunning_snapshot (k : Fin 4) (c : Cause) : (s.abortRunning k c).record k = { s.record k with
    snapshot := (s.seat k).running.elim (s.record k).snapshot fun r => some (s.snapshotOf k r c) } := by
  cases hr : (s.seat k).running with
  | none => rw [abortRunning_idle hr]; rfl
  | some r => rw [abortRunning_record hr]; rfl

theorem abortRunning_restAll (k : Fin 4) (c : Cause) :
    ((s.abortRunning k c).seat k).outputs.restAll = (s.seat k).outputs.restAll := by
  cases hr : (s.seat k).running with
  | none => rw [abortRunning_idle hr]
  | some r => exact (abortRunning_seat hr).2.2.2.1

/-- A seat in TESTING enters FAULT: its step is aborted, its channels are freed, and starts of other seats' steps follow
(R8, R9). -/
structure FaultedFor (k : Fin 4) (c : Cause) (s t : State) : Prop where
  record : t.record k = { (s.record k).enterFault c with
    snapshot := (s.seat k).running.elim (s.record k).snapshot fun r => some (s.snapshotOf k r c) }
  queue : (t.seat k).queue = []
  running : (t.seat k).running = none
  waits : k ∉ t.waitList
  outputs : (t.seat k).outputs = (s.seat k).outputs.restAll
  entry : ∀ r, (s.seat k).running = some r → ∃ e, (t.seat k).results = (s.seat k).results.append e ∧ AbortEntry s r c e

theorem faultSeat_faultedFor (ht : (s.record k).state = .testing) (c : Cause) : FaultedFor k c s (s.faultSeat k c) := by
  obtain ⟨hrec, hqueue, hrun, hres⟩ := faultSeat_testing_kept ht c
  have heq := faultSeat_testing ht c
  have hwait := toFault_left_waitList (s := s) k c
  have hstate : ((toFault ((s.abortRunning k c).leaveTesting k) k c).record k).state ≠ .testing := by
    rw [toFault_state]
    decide
  have hseat := toFault_seat (s := (s.abortRunning k c).leaveTesting k) k c
  obtain ⟨lrec, -, lrun, lres⟩ := leaveTesting_untouched (s := s.abortRunning k c) (k := k) k
  have lout := leaveTesting_outputs (s := s.abortRunning k c) (k := k)
  have hresting : Resting k (s.seat k).outputs.restAll (toFault ((s.abortRunning k c).leaveTesting k) k c) := by
    refine ⟨fun d => ?_, ?_, rfl⟩
    · rw [State.channel, (toFault_keeps k c).2]
      exact (leavingTestingReleasesEverything (s.abortRunning k c) k).1 d
    · rw [hseat, lout, restAll_restAll, abortRunning_restAll]
  have hrested := hresting.sequence [.arbiter] hstate hwait
  have hwaits := not_waiting_of_others
    (works_sequence_others [.arbiter] (not_considerable_of_state hstate) hwait) hwait
  generalize toFault ((s.abortRunning k c).leaveTesting k) k c = v at *
  refine ⟨?_, ?_, ?_, heq ▸ hwaits, heq ▸ hrested.outputs, fun r hr => ?_⟩
  · rw [hrec, State.record, hseat, lrec, abortRunning_snapshot]
    rfl
  · rw [hqueue, hseat]
  · rw [hrun, hseat, lrun, abortRunning_running]
  · obtain ⟨-, -, -, -, e, ares, hid, hout, hdec, hcause, hstart, helapsed⟩ := abortRunning_seat (c := c) hr
    refine ⟨e, ?_, hid, hout, hdec, hcause, hstart, helapsed⟩
    rw [hres, hseat, lres, ares]

/-- Settles O27, for a seat in FAULT, in TESTING and in another state. -/
theorem enteringFault : Obligations.EnteringFault := by
  refine fun s k c _ => ⟨fun hf => faultSeat_fault hf c, fun hf => ?_⟩
  by_cases ht : (s.record k).state = .testing
  · obtain ⟨hrec, hqueue, hrun, hwaits, hout, hentry⟩ := faultSeat_faultedFor ht c
    rw [hrec]
    refine ⟨rfl, rfl, rfl, faultActuator_eq c, rfl, rfl, hqueue, hout, fun _ => ⟨hrun, hwaits, fun r hr => ⟨?_, ?_⟩⟩,
      fun h => absurd ht h⟩
    · rw [hr]
      rfl
    · obtain ⟨e, hres, he⟩ := hentry r hr
      exact ⟨e, hres, he.stepId, he.outcome, he.cause⟩
  · have hseat := toFault_seat (s := s) k c
    rw [faultSeat_idle hf ht, State.record, hseat]
    exact ⟨rfl, rfl, rfl, faultActuator_eq c, rfl, rfl, rfl, rfl, fun h => absurd h ht,
      fun _ => ⟨fun j hj => toFault_seat_other hj c, (toFault_keeps k c).2, toFault_port k c⟩⟩

/-! ### An abort that takes its seat out of TESTING (R41, R44) -/

/-- An aborted step under HOLD_SEAT, or with nothing queued behind it, takes its seat out of TESTING with its queue
empty. -/
theorem settle_aborted {x : FailPolicy} (h : x = .holdSeat ∨ (s.seat k).queue = []) : ∃ n, s.settle k .aborted x =
    (s.setQueue k []).leaveFor k (if x = .holdSeat then .hold else .powered) n := by
  by_cases hx : x = .holdSeat
  · exact ⟨_, by rw [settle_hold (by decide) hx, if_pos hx]⟩
  · have hqueue := h.resolve_left hx
    have hself : s.setQueue k [] = s := by
      rw [← hqueue]
      exact setQueue_self s k
    exact ⟨none, by rw [settle_powered (fun e => hx e.2) hqueue, if_neg hx, hself]⟩

/-- Seat `k` left TESTING with its running step aborted and its queue flushed or empty. -/
structure AbortedFor (k : Fin 4) (c : Cause) (r : Running) (s t : State) : Prop where
  state : (t.record k).state = if r.step.policy = .holdSeat then .hold else .powered
  snapshot : (t.record k).snapshot = some (s.snapshotOf k r c)
  queue : (t.seat k).queue = []
  running : (t.seat k).running = none
  resting : Resting k (s.seat k).outputs.restAll t
  entry : ∃ e, (t.seat k).results = (s.seat k).results.append e ∧ AbortEntry s r c e

theorem abortByPolicy_abortedFor {r : Running} (hr : (s.seat k).running = some r)
    (h : r.step.policy = .holdSeat ∨ (s.seat k).queue = []) (c : Cause) :
    AbortedFor k c r s (s.abortByPolicy k c) := by
  obtain ⟨-, aqueue, arun, aout, e, ares, hid, houtcome, hdec, hcause, hstart, helapsed⟩ := abortRunning_seat (c := c) hr
  have arec := abortRunning_record hr c
  have heq : s.abortByPolicy k c =
      ((s.abortRunning k c).settle k .aborted r.step.policy).sequence [.arbiter, .consider k] := by
    simp only [State.abortByPolicy, hr]
  obtain ⟨n, hsettle⟩ := settle_aborted (s := s.abortRunning k c) (h.imp_right aqueue.trans)
  rw [hsettle] at heq
  obtain ⟨st, hst⟩ : ∃ st, st = if r.step.policy = .holdSeat then SeatState.hold else .powered := ⟨_, rfl⟩
  rw [← hst] at heq
  have htesting : st ≠ .testing := by
    rw [hst]
    split <;> decide
  obtain ⟨lrec, lqueue, lrun, lres, -⟩ := leaveFor_seat (s := (s.abortRunning k c).setQueue k []) (k := k) st n
  have lresting := resting_leaveFor ((s.abortRunning k c).setQueue k []) k st n
  have w := sequence_after_leaveFor (s := (s.abortRunning k c).setQueue k []) (k := k) st n htesting
    [.arbiter, .consider k]
  obtain ⟨trec, tqueue, trun, tres⟩ := others_keep w
  have tresting := lresting.sequence [.arbiter, .consider k] (by rw [lrec]; exact htesting)
    (by simp [leaveFor_waitList])
  rw [← heq] at trec tqueue trun tres tresting
  have houtputs : (((s.abortRunning k c).setQueue k []).seat k).outputs.restAll = (s.seat k).outputs.restAll := by
    rw [seat_setQueue_same, aout]
  have hrecord : ((s.abortRunning k c).setQueue k []).record k = (s.abortRunning k c).record k := by simp
  refine ⟨?_, ?_, ?_, ?_, houtputs ▸ tresting, e, ?_, hid, houtcome, hdec, hcause, hstart, helapsed⟩
  · rw [trec, lrec]
    exact hst
  · rw [trec, lrec, hrecord, arec]
    rfl
  · rw [tqueue, lqueue, seat_setQueue_same]
  · rw [trun, lrun, seat_setQueue_same, arun]
  · rw [tres, lres, seat_setQueue_same, ares]

/-! ### ABORT_STEP (R43) -/

theorem abortStepArg_bytes (k : Fin 4) (id : Word) :
    abortStepArg ([byteOf k.val] ++ bytes16 id.toNat) = some (k, id) := by
  simp [abortStepArg, bytes16, finArg_byteOf, word16_bytes]

theorem exec_abortStep (ho : (s.record k).owner = some p) (id : Word) :
    exec (.abortStep p ([byteOf k.val] ++ bytes16 id.toNat)) s = command p s
      (require s (s.runsStep k id) .wrongState (done (s.abortByPolicy k .stationAbort))) := by
  change command p s (withArg s (abortStepArg _) _) = _
  rw [abortStepArg_bytes, withArg_some, ifOwner_owner ho]

theorem runsStep_iff (id : Word) : s.runsStep k id = true ↔
    (s.record k).state = .testing ∧ ∃ r, (s.seat k).running = some r ∧ r.step.id = id := by
  unfold State.runsStep
  cases (s.seat k).running <;> simp

/-! ### A refused move (R83) -/

/-- A refused move leaves everything a snapshot is made of. -/
theorem refuseMove_snapshotOf (c : Fin 8) (r : Running) (x : Cause) :
    (s.refuseMove c).snapshotOf k r x = s.snapshotOf k r x := by
  have hchannel : ∀ d, (s.refuseMove c).snapshotChannel d = s.snapshotChannel d := fun d => by
    unfold State.snapshotChannel State.refuseMove
    by_cases hd : d = c
    · subst hd
      simp only [channel_setChannel_same]
    · simp only [channel_setChannel_other _ _ _ _ hd]
  have hchannels : (s.refuseMove c).snapshotChannels r = s.snapshotChannels r := by
    simp only [State.snapshotChannels, hchannel]
  unfold State.snapshotOf
  rw [hchannels]
  rfl

/-- The move of a channel that is not granted: the running step of its seat is aborted (R58, R83). -/
theorem exec_channelMove_refused {c : Fin 8} {x : Target} {y : Program} (hout : (s.channel c).outstanding ≠ 0)
    (hstate : (s.channel c).state = .armed ∨ (s.channel c).state = .running) (hseat : (s.channel c).seat = some k)
    (htarget : (s.channel c).target = some x) (hprogram : s.channelProgram c = some y)
    (hgrant : s.moveGranted c k = false) (hkept : (s.channel c).kept = false) :
    exec (.channelMove c) s = .next ((s.refuseMove c).abortByPolicy k .regionDenied) := by
  have hready : s.moveReady c = true := by simpa [State.moveReady, hout] using hstate
  have hfree : (s.channel c).state ≠ .free := by
    rcases hstate with h | h <;> rw [h] <;> decide
  have hmove : s.moveOnce c = (s.refuseMove c, true) := by
    rw [moveOnce_eq hfree hseat htarget hprogram, hgrant, if_neg Bool.false_ne_true]
  have hsame : ((s.refuseMove c).channel c).seat = some k ∧ ((s.refuseMove c).channel c).kept = false := by
    rw [State.refuseMove, channel_setChannel_same]
    exact ⟨hseat, hkept⟩
  change whenDue s (s.moveReady c) (takeRefusal (s.moveOnce c) c) = _
  rw [hready, whenDue_true, hmove, takeRefusal, if_pos rfl, State.handleRefusal, hsame.1]
  dsimp only
  rw [hsame.2, if_neg Bool.false_ne_true]

/-- Settles O34: ABORT_STEP and a refused move end the step in the same way. -/
theorem abortStepFollowsPolicy : Obligations.AbortStepFollowsPolicy := by
  refine ⟨fun p k id s h ho => ⟨fun hno => ?_, fun r ht hr hid hpolicy => ?_⟩,
    fun s c k x y r hout hstate hseat htarget hprogram hgrant hkept ht hr hpolicy => ?_⟩
  · have hruns : s.runsStep k id = false := by
      rw [← Bool.not_eq_true, runsStep_iff]
      rintro ⟨ht, r, hr, hid⟩
      exact hno r ht hr hid
    exact (exec_abortStep ho id).trans (require_refused h hruns _ _)
  · obtain ⟨hst, hsnapshot, hqueue, hrun, -, e, hres, he⟩ := abortByPolicy_abortedFor hr hpolicy .stationAbort
    exact ⟨_, (exec_abortStep ho id).trans ((require_taken ((runsStep_iff id).mpr ⟨ht, r, hr, hid⟩) _ _).trans
      (command_taken_pair h _ _ _)), hst, hqueue, hrun, hsnapshot, e, hres, he.stepId.trans hid, he.outcome, he.cause⟩
  · have hseats : ∀ j, (s.refuseMove c).seat j = s.seat j := setChannel_seat c _
    obtain ⟨hst, hsnapshot, hqueue, hrun, hresting, e, hres, he⟩ := abortByPolicy_abortedFor
      (s := s.refuseMove c) (by rw [hseats]; exact hr) (by rw [hseats]; exact hpolicy) .regionDenied
    rw [refuseMove_snapshotOf] at hsnapshot
    rw [hseats] at hres
    exact ⟨_, exec_channelMove_refused hout hstate hseat htarget hprogram hgrant hkept, hst, hqueue, hrun, hsnapshot,
      hresting.unbound, by rw [hresting.outputs, hseats], abortByPolicy_pattern k .regionDenied, e, hres, he.stepId,
      he.outcome, he.deciding, he.cause, he.start, he.elapsed⟩

end Steps
end Machine
end Sys2Proof
end

section
/-! The resets (R189, R190) and the end of the load (R22, R60, R104, R191, R192). -/

namespace Sys2Proof
namespace Machine
namespace Steps

variable {s t u : State} {k : Fin 4} {p : Port}

/-! ### Cold reset (R190) -/

theorem coldReset_eeprom_kept (acc : StoreAccepted) (h : s.loader.store = none) :
    (s.coldReset acc).eeprom = s.eeprom := by
  change s.tornEeprom acc = _
  rw [State.tornEeprom, h]

theorem coldReset_eeprom_torn (acc : StoreAccepted) {x : StoreOp} (h : s.loader.store = some x) :
    (s.coldReset acc).eeprom = storedWords s.eeprom x acc := by
  change s.tornEeprom acc = _
  rw [State.tornEeprom, h]

/-- The key pins keep their levels; the debounced levels are inactive (R158, R190; log entry 7). -/
theorem coldReset_key (acc : StoreAccepted) (y : Key) : (s.coldReset acc).key y = (s.key y).atReset := by
  match y with
  | .stop => rfl
  | .answer 0 .yes | .answer 1 .yes | .answer 2 .yes | .answer 3 .yes => rfl
  | .answer 0 .no | .answer 1 .no | .answer 2 .no | .answer 3 .no => rfl

theorem coldReset_tables (s : State) (acc : StoreAccepted) : (∀ r, (s.coldReset acc).grant r = .none) ∧
    (∀ i, (s.coldReset acc).program i = { program := none, uses := 0 }) ∧
    (∀ i, (s.coldReset acc).limit i = { limit := none, uses := 0 }) ∧
    (∀ i, (s.coldReset acc).cal i = { offset := 0, gain := 4096, source := .default }) ∧
    (∀ c, (s.coldReset acc).channel c = Channel.free) ∧ ∀ m, (s.coldReset acc).slot m = MeasSlot.free := by
  simp [State.grant, State.program, State.limit, State.cal, State.channel, State.slot, State.coldReset, State.reset]

theorem coldReset_panelSeat (s : State) (acc : StoreAccepted) (k : Fin 4) :
    (s.coldReset acc).lamp k = { mode := .off, phase := 0 } ∧
    (s.coldReset acc).prompt k = { isOpen := false, expected := none, width := none } := by
  simp [State.lamp, State.prompt, State.coldReset, Panel.atReset, Panel.reset]

theorem atReset_sensor (x : Seat) (y : Sensor) : x.atReset.record.sensor y = (x.record.sensor y).atReset := by
  cases y <;> rfl

/-! ### The reset inputs (R189, R190) -/

theorem setPort_setPort (p : Port) (x y : PortRecord) : (s.setPort p x).setPort p y = s.setPort p y := by
  cases p <;> rfl

theorem exec_portResetInput_loading (h : s.loader.phase = .loading) : exec (.portResetInput p) s =
    .next (s.setPort p { PortRecord.reset with select := (s.port p).select, resetActive := true }) := by
  change execPortResetInput p s = _
  rw [execPortResetInput, h]
  dsimp only
  rw [State.setResetActive, setPort_setPort, port_setPort_same]
  rfl

theorem exec_portResetInput_held (h : s.loader.phase = .held) :
    exec (.portResetInput p) s = .next (s.setPort p { s.port p with resetActive := true }) := by
  change execPortResetInput p s = _
  rw [execPortResetInput, h]
  rfl

theorem exec_portResetInput_ready (h : s.loader.phase = .ready) :
    exec (.portResetInput p) s = .next ((s.setPort p { s.port p with resetActive := true }).portReset p) := by
  change execPortResetInput p s = _
  rw [execPortResetInput, h]
  rfl

/-- Settles O17. -/
theorem resetsAreTaken : Obligations.ResetsAreTaken := by
  refine ⟨fun p s => ⟨fun h => command_taken_pair h _ _ _, exec_portResetInput_ready, exec_portResetInput_loading,
    exec_portResetInput_held, rfl⟩, fun s acc => ?_, fun s h => ?_⟩
  · obtain ⟨hgrant, hprogram, hlimit, hcal, hchannel, hslot⟩ := coldReset_tables s acc
    refine ⟨s.coldReset acc, rfl, rfl, rfl, rfl, rfl, rfl, hgrant, hprogram, hlimit, hcal, hchannel, hslot, rfl, rfl, rfl,
      coldReset_eeprom_kept acc, fun x hx hwf a => ?_, fun p => ⟨coldReset_port s acc p, ?_⟩, rfl, rfl, rfl, rfl,
      coldReset_key acc, fun k => ?_⟩
    · rw [coldReset_eeprom_torn acc hx]
      exact read_storedWords hwf a
    · cases p <;> rfl
    · have hseat := coldReset_seat s acc k
      obtain ⟨hlamp, hprompt⟩ := coldReset_panelSeat s acc k
      refine ⟨hlamp, hprompt, ?_⟩
      simp only [State.record, State.frame, State.capture, hseat]
      refine ⟨rfl, rfl, rfl, rfl, rfl, rfl, rfl, rfl, atReset_sensor (s.seat k), rfl, rfl, rfl, fun f => ?_, rfl,
        fun i => ?_, rfl, rfl, rfl, rfl, rfl, rfl, rfl, rfl, rfl⟩
      · simp [Seat.atReset, Seat.reset, FrameSlot.reset]
      · simp [Seat.atReset, Seat.reset, Capture.reset]
  · change whenDue s _ _ = _
    rw [decide_eq_true h, whenDue_true]

/-! ### The end of the load (R22, R192) -/

theorem cal_setCal (i j : Fin 32) (x : CalEntry) : (s.setCal i x).cal j = if j = i then x else s.cal j := by
  by_cases h : j = i
  · subst h
    simp [State.cal, State.setCal]
  · have hval : ¬ i.val = j.val := fun e => h (Fin.ext e.symm)
    simp [State.cal, State.setCal, h, hval]

theorem foldl_setCal (f : Fin 32 → CalEntry) (xs : List (Fin 32)) (s : State) (j : Fin 32) :
    (xs.foldl (fun v i => v.setCal i (f i)) s).cal j = if j ∈ xs then f j else s.cal j := by
  induction xs generalizing s with
  | nil => rfl
  | cons x xs ih =>
    rw [List.foldl_cons, ih, cal_setCal]
    by_cases hx : j = x <;> simp [hx]

/-- The calibration table takes the entries of the EEPROM (R104, R191). -/
theorem loadCalibration_cal (s : State) (j : Fin 32) : s.loadCalibration.cal j = loadedEntry s.eeprom j := by
  rw [State.loadCalibration, foldl_setCal]
  exact if_pos (List.mem_finRange j)

theorem configure_cal (used : Bool) (j : Fin 32) :
    (s.configure used).cal j = if used then loadedEntry s.eeprom j else s.cal j := by
  cases used with
  | true =>
    have htable : (s.configure true).calibration = s.loadCalibration.calibration := by
      rw [State.configure, if_pos rfl]
    rw [State.cal, htable, if_pos rfl]
    exact loadCalibration_cal s j
  | false => rfl

theorem configure_keeps (s : State) (used : Bool) : (s.configure used).loader = s.loadedLoader used ∧
    (s.configure used).eeprom = s.eeprom ∧ (∀ k, (s.configure used).record k = s.record k) ∧
    (s.configure used).unclampDeadline = msAfter s.now (s.loadedLoader used).unclampTimeout ∧
    (∀ p, (s.configure used).port p = s.port p) ∧ (s.configure used).now = s.now := by
  obtain ⟨cs, hconf⟩ := configure_eq s used
  rw [hconf]
  exact ⟨rfl, rfl, fun _ => rfl, rfl, fun p => by cases p <;> rfl, rfl⟩

/-- The deadline of a seat that the load places by its levels. -/
def loadedDeadline (s : State) (r : SeatRecord) : Option RackTime :=
  if r.loadedState = .unclamping then some s.unclampDeadline else none

theorem placeSeat_keeps (s : State) (k : Fin 4) : (∀ p, (placeSeat s k).port p = s.port p) ∧
    (placeSeat s k).unclampDeadline = s.unclampDeadline := by
  simp [placeSeat, moveSeat_eq (loadedState_placed _).1, State.unclampDeadline]

theorem placeSeat_record (s : State) (k : Fin 4) :
    (placeSeat s k).record k = (s.record k).enter (s.record k).loadedState (loadedDeadline s (s.record k)) := by
  simp [placeSeat, moveSeat_eq (loadedState_placed _).1, loadedDeadline]

/-- The load places each seat by its own levels and posts nothing (R22, R192). -/
theorem foldl_placeSeat (xs : List (Fin 4)) (hxs : xs.Nodup) (s : State) :
    (∀ k, k ∈ xs → (xs.foldl placeSeat s).record k =
      (s.record k).enter (s.record k).loadedState (loadedDeadline s (s.record k))) ∧
    ∀ p, (xs.foldl placeSeat s).port p = s.port p := by
  induction xs generalizing s with
  | nil => exact ⟨nofun, fun _ => rfl⟩
  | cons x xs ih =>
    obtain ⟨hx, hnodup⟩ := List.nodup_cons.mp hxs
    obtain ⟨hport, hdeadline⟩ := placeSeat_keeps s x
    obtain ⟨hplaced, hports⟩ := ih hnodup (placeSeat s x)
    refine ⟨fun k hk => ?_, fun p => (hports p).trans (hport p)⟩
    by_cases hkx : k = x
    · subst hkx
      have hstays : (xs.foldl placeSeat (placeSeat s k)).record k = (placeSeat s k).record k :=
        (Works.foldl (T := (· ∈ xs)) xs _ fun v j hj => (placeSeat_works v j).mono fun _ e => e ▸ hj).othersRecord k hx
      rw [List.foldl_cons, hstays, placeSeat_record]
    · have hother : (placeSeat s x).record k = s.record k := (placeSeat_works s x).othersRecord k hkx
      rw [List.foldl_cons, hplaced k ((List.mem_cons.mp hk).resolve_left hkx), loadedDeadline, hdeadline, hother]
      rfl

theorem loadedState_unclamping {r : SeatRecord} (h : r.confirm.level = true) : r.loadedState = .unclamping := by
  rw [SeatRecord.loadedState, h]

theorem loadedState_loaded {r : SeatRecord} (h : r.confirm.level = false) (hp : r.present.level = true) :
    r.loadedState = .loaded := by
  rw [SeatRecord.loadedState, h, hp]

theorem loadedState_vacant {r : SeatRecord} (h : r.confirm.level = false) (hp : r.present.level = false) :
    r.loadedState = .vacant := by
  rw [SeatRecord.loadedState, h, hp]

theorem postBoth_port (n : Notice) (p : Port) : (s.postBoth n).port p = (s.port p).post n := by
  cases p <;> simp [State.postBoth, State.post]

/-- Settles O19. -/
theorem loadEndConfigures : Obligations.LoadEndConfigures := by
  intro s answers used hloading htime hused
  have hready : s.loadReady = true := by
    rw [State.loadReady, decide_eq_true hloading]
    exact htime
  have heeprom : s.eepromUsed answers = used := hused.symm
  have w : Works (fun _ => True) (s.configure used) (s.endLoad answers) := by
    rw [← heeprom]
    exact (works_foldl_placeSeat seatIds).trans (works_postBoth _)
  obtain ⟨hplaced, hposted⟩ := foldl_placeSeat seatIds (by decide) (s.configure used)
  obtain ⟨hloader, hstored, hrecord, hdeadline, hport, hnow⟩ := configure_keeps s used
  have hloaded : (s.endLoad answers).loader = s.loadedLoader used := w.loader.trans hloader
  have hendRecord : ∀ k, (s.endLoad answers).record k =
      (s.record k).enter (s.record k).loadedState (loadedDeadline (s.configure used) (s.record k)) := fun k => by
    have hseat := (works_postBoth (T := fun _ => False) (s := seatIds.foldl placeSeat (s.configure used))
      ((seatIds.foldl placeSeat (s.configure used)).notice .config none none (if used then 0 else 1) none)).othersRecord k id
    rw [← hrecord k, ← hplaced k (mem_seatIds k), ← hseat, ← heeprom]
    rfl
  refine ⟨s.endLoad answers, ?_, by rw [hloaded]; rfl, by rw [hloaded]; rfl, by rw [hloaded]; rfl, by rw [hloaded]; rfl,
    w.pattern, w.eeprom.trans hstored, fun hdefault => ?_, fun heep j => ?_, fun k => ?_, fun p => ?_⟩
  · change whenDue s s.loadReady _ = _
    rw [hready, whenDue_true]
  · rw [w.calibration, hdefault]
    rfl
  · have hcal : (s.endLoad answers).cal j = loadedEntry s.eeprom j := by
      rw [State.cal, w.calibration]
      exact (configure_cal used j).trans (if_pos heep)
    rw [hcal]
    exact ⟨rfl, rfl, rfl⟩
  · rw [hendRecord, hloaded]
    refine ⟨rfl, fun hc => ?_, fun hc hp => loadedState_loaded hc hp, fun hc hp => loadedState_vacant hc hp⟩
    have hstate := loadedState_unclamping hc
    refine ⟨hstate, congrArg SeatState.actuator hstate, ?_⟩
    rw [SeatRecord.enter, loadedDeadline, if_pos hstate, hdeadline]
  · have hend : (s.endLoad answers).port p = ((seatIds.foldl placeSeat (s.configure used)).port p).post
        ((seatIds.foldl placeSeat (s.configure used)).notice .config none none (if used then 0 else 1) none) := by
      rw [← postBoth_port, ← heeprom]
      rfl
    rw [hend, hposted, hport, State.notice, works_now (works_foldl_placeSeat seatIds), hnow]
    cases used <;> rfl

end Steps
end Machine
end Sys2Proof
end

section
/-! The records of the pure reads, field by field (R21, R47 to R49, R84, R93, R101, R115, R164, R170, R171, R182). -/

namespace Sys2Proof
namespace Machine
namespace Steps

variable {s : State} {k : Fin 4} {p : Port}

/-! ### Optional fields and lists (R180) -/

theorem eOpt_one_e8 (o : Option Nat) : eOpt 1 e8 o = optional1 o := by cases o <;> rfl

theorem eOpt_one_byte (o : Option Byte) : eOpt 1 (fun b : Byte => [b]) o = optional1 (o.map (·.toNat)) := by
  cases o with
  | none => rfl
  | some b => simp [eOpt, optional1, byteOf_toNat_self]

theorem eOpt_int16 (o : Option Int) :
    eOpt 2 eInt16 o = optional2 (o.map fun v => (BitVec.ofInt 16 v).toNat) := by cases o <;> rfl

theorem eChannel_eq (o : Option (Fin 8)) : eChannel o = optional1 (o.map (·.val)) := eOpt_one_eq _ o

theorem eOptText_eq (o : Option (List Byte)) : eOptText o = match o with
    | none => [0, 0]
    | some x => [1, byteOf x.length] ++ x := by cases o <;> rfl

theorem eList_e8 {α : Type} (code : α → Nat) (xs : List α) :
    eList (fun x => e8 (code x)) xs = [byteOf xs.length] ++ xs.map fun x => byteOf (code x) := by
  rw [eList, List.map_eq_flatMap]
  rfl

/-! ### READ_SEAT and READ_SUMMARY (R21, R171) -/

theorem seatBytes_eq (s : State) (k : Fin 4) : s.seatBytes k =
    [byteOf (s.record k).state.code, byteOf (ownerCode (s.record k).owner)] ++
    (match (s.record k).cause with
     | none => [0, 0]
     | some c => [1, byteOf c.code]) ++
    [byteOf (s.record k).actuator.code, byteOf (s.record k).supply.code,
     if (s.record k).present.level then 1 else 0, if (s.record k).confirm.level then 1 else 0,
     if (s.record k).trip.level then 1 else 0] ++
    (match (s.record k).deadline with
     | none => [0, 0, 0]
     | some t => [1] ++ bytes16 (if msReached s.now t then 0 else (t - s.now).toNat)) ++
    (match (s.record k).serial with
     | none => [0, 0]
     | some x => [1, byteOf x.length] ++ x) := by
  have hcause : eOpt 1 (fun c : Cause => e8 c.code) (s.record k).cause = match (s.record k).cause with
      | none => [0, 0]
      | some c => [1, byteOf c.code] := by cases (s.record k).cause <;> rfl
  have hdeadline : eOpt 2 (fun t => e16 (msLeft s.now t)) (s.record k).deadline = match (s.record k).deadline with
      | none => [0, 0, 0]
      | some t => [1] ++ bytes16 (if msReached s.now t then 0 else (t - s.now).toNat) := by
    cases (s.record k).deadline <;> rfl
  unfold State.seatBytes
  dsimp only
  rw [hcause, hdeadline, eOptText_eq]
  simp only [e8_eq, eFlag_eq, List.append_assoc, List.cons_append, List.nil_append]

theorem eFlag_isPending (r : ResultStore) :
    eFlag r.isPending = [if r.entries ≠ [] ∨ r.summary ≠ .none then 1 else 0] := by
  rw [eFlag_eq]
  exact congrArg (fun b : Byte => [b]) (if_congr (isPending_iff r) rfl rfl)

theorem summaryBytes_eq (s : State) (k : Fin 4) : s.summaryBytes k =
    [byteOf (s.seat k).results.summary.code, byteOf (s.seat k).results.entries.length,
     if (s.seat k).results.truncated then 1 else 0] ++
    (match (s.record k).serial with
     | none => [0, 0]
     | some x => [1, byteOf x.length] ++ x) ++
    [if (s.seat k).results.entries ≠ [] ∨ (s.seat k).results.summary ≠ .none then 1 else 0] := by
  unfold State.summaryBytes
  dsimp only
  rw [eOptText_eq, eFlag_isPending]
  simp only [e8_eq, eFlag_eq, List.cons_append, List.nil_append]

/-! ### READ_STEP_STATE (R49) -/

theorem waitPosition_eq (k : Fin 4) (n : Nat) (l : List (Fin 4)) :
    waitPosition k n l = if k ∈ l then some (l.idxOf k + n) else none := by
  induction l generalizing n with
  | nil => rfl
  | cons j js ih =>
    rw [waitPosition, ih]
    by_cases hj : j = k
    · simp [hj]
    · have hkj : ¬ k = j := fun e => hj e.symm
      by_cases hk : k ∈ js <;> simp [hj, hkj, hk, List.idxOf_cons_ne]
      omega

theorem needBytes_eq (s : State) (k : Fin 4) : e8 (s.headNeed k).1 ++ e8 (s.headNeed k).2 =
    match (s.seat k).queue with
    | [] => [0, 0]
    | st :: _ => [byteOf (s.need k st).1, byteOf (s.need k st).2] := by
  unfold State.headNeed
  cases (s.seat k).queue <;> rfl

theorem keptBytes_eq (s : State) (k : Fin 4) : s.keptBytes k = match s.keptChannel k with
    | none => [0, 0, 0]
    | some c => [1, byteOf c.val, byteOf (((s.channel c).target.map Target.code).getD 0)] := by
  unfold State.keptBytes
  cases s.keptChannel k with
  | none => rfl
  | some c =>
    simp only [eOpt]
    cases (s.channel c).target <;> rfl

theorem runningBytes_eq (s : State) (r : Running) : s.runningBytes r =
    bytes16 r.step.id.toNat ++ bytes16 (s.now - r.start).toNat ++ bytes16 (msLeft s.now r.deadline) ++
      [byteOf r.channels.length] ++ r.channels.map (fun c => byteOf c.val) ++
      [byteOf r.slots.length] ++ r.slots.map (fun m => byteOf m.val) ++
      [byteOf r.verdicts.length] ++ r.verdicts.flatMap (fun v => optional1 (v.map StepOutcome.rank)) := by
  have hverdict : (eOpt 1 fun v : StepOutcome => e8 v.rank) = fun v => optional1 (v.map StepOutcome.rank) :=
    funext fun v => eOpt_one_eq _ v
  have hverdicts : r.verdictBytes =
      [byteOf r.verdicts.length] ++ r.verdicts.flatMap (fun v => optional1 (v.map StepOutcome.rank)) := by
    rw [Running.verdictBytes, hverdict]
    rfl
  rw [State.runningBytes, eList_e8, eList_e8, hverdicts]
  simp only [e16_eq, List.append_assoc]

theorem stepStateBytes_eq (s : State) (k : Fin 4) : s.stepStateBytes k =
    [byteOf (s.seat k).queue.length] ++ optional2 ((s.seat k).queue.head?.map (fun st => st.id.toNat)) ++
    optional1 (if k ∈ s.waitList then some (s.waitList.idxOf k + 1) else none) ++
    (match (s.seat k).queue with
     | [] => [0, 0]
     | st :: _ => [byteOf (s.need k st).1, byteOf (s.need k st).2]) ++
    (match s.keptChannel k with
     | none => [0, 0, 0]
     | some c => [1, byteOf c.val, byteOf (((s.channel c).target.map Target.code).getD 0)]) ++
    (match (s.seat k).running with
     | none => zeros 10
     | some r =>
       [1] ++ bytes16 r.step.id.toNat ++ bytes16 (s.now - r.start).toNat ++ bytes16 (msLeft s.now r.deadline) ++
         [byteOf r.channels.length] ++ r.channels.map (fun c => byteOf c.val) ++
         [byteOf r.slots.length] ++ r.slots.map (fun m => byteOf m.val) ++
         [byteOf r.verdicts.length] ++ r.verdicts.flatMap (fun v => optional1 (v.map StepOutcome.rank))) := by
  rw [← needBytes_eq, ← keptBytes_eq, ← waitPosition_eq, ← eOpt_one_e8, ← eOpt_two_eq, State.stepStateBytes]
  cases (s.seat k).running with
  | none => simp only [e8_eq, List.append_assoc]; rfl
  | some r => simp only [eOpt, runningBytes_eq, e8_eq, List.append_assoc, List.cons_append, List.nil_append]

/-! ### READ_OUTPUTS and READ_FRAME_SLOT (R93, R101) -/

theorem eAnalog_eq (o : AnalogOut) (d : Option (Fin 8)) : eAnalog o d =
    bytes16 o.live.toNat ++ optional1 (d.map (·.val)) ++ optional2 (o.lastSet.map (·.toNat)) := by
  rw [eAnalog, eChannel_eq, eOpt_two_eq, e16_eq]

theorem eFreq_eq (o : FreqOut) (d : Option (Fin 8)) : eFreq o d =
    bytes16 o.live.toNat ++ optional1 (d.map (·.val)) ++ optional2 (o.lastSet.map (·.toNat)) := by
  rw [eFreq, eChannel_eq, eOpt_two_eq, e16_eq]

theorem outputBytes_eq (s : State) (k : Fin 4) : s.outputBytes k =
    bytes16 (s.seat k).outputs.ao0.live.toNat ++ optional1 ((s.driver k .ao0).map (·.val)) ++
      optional2 ((s.seat k).outputs.ao0.lastSet.map (·.toNat)) ++
    bytes16 (s.seat k).outputs.ao1.live.toNat ++ optional1 ((s.driver k .ao1).map (·.val)) ++
      optional2 ((s.seat k).outputs.ao1.lastSet.map (·.toNat)) ++
    bytes16 (s.seat k).outputs.fo0.live.toNat ++ optional1 ((s.driver k .fo0).map (·.val)) ++
      optional2 ((s.seat k).outputs.fo0.lastSet.map (·.toNat)) ++
    bytes16 (s.seat k).outputs.fo1.live.toNat ++ optional1 ((s.driver k .fo1).map (·.val)) ++
      optional2 ((s.seat k).outputs.fo1.lastSet.map (·.toNat)) ++
    [(s.seat k).outputs.dl.live] ++ optional1 ((s.driver k .dl).map (·.val)) ++
      optional1 ((s.seat k).outputs.dl.lastSet.map (·.toNat)) ++
    ids8.flatMap (fun f => optional1 ((s.driver k (.fs f)).map (·.val))) := by
  unfold State.outputBytes
  dsimp only
  simp only [eAnalog_eq, eFreq_eq, eLines, eChannel_eq, eOpt_one_byte, List.append_assoc]

theorem frameTriggerCount_eq (s : State) (k : Fin 4) (f : Fin 8) : s.frameTriggerCount k f =
    (ids8.filter (fun c => (s.channel c).state ≠ .free ∧ (s.channel c).seat = some k ∧
      (s.channel c).trigger = some (.frame f))).length := by
  refine congrArg List.length (List.filter_congr fun c _ => ?_)
  simp [Channel.frameTriggered, Channel.onSeat, Bool.and_assoc, bne, beq_eq_decide]

theorem carriesByte_eq (l : FrameLink) (f : Fin 8) : eFlag (l.carries f) = match l with
    | .idle => ([0] : List Byte)
    | .sending g _ _ _ => if g = f then [1] else [0] := by
  cases l with
  | idle => rfl
  | sending g _ _ _ => by_cases hg : g = f <;> simp [FrameLink.carries, eFlag, hg]

theorem frameSlotBytes_eq (s : State) (k : Fin 4) (f : Fin 8) : s.frameSlotBytes k f =
    [if (s.frame k f).enable then 1 else 0] ++ bytes16 (s.frame k f).ident.toNat ++
    [byteOf (s.frame k f).length] ++ bytes16 (s.frame k f).period ++ (s.frame k f).payload.toList ++
    [byteOf (s.frame k f).last.code, if (s.frame k f).pending then 1 else 0] ++
    optional2 ((s.frame k f).nextDue.map (fun t => if Instant.reached s.clock t then 0 else (t.ms - s.now).toNat)) ++
    (match (s.seat k).link with
     | .idle => ([0] : List Byte)
     | .sending g _ _ _ => if g = f then [1] else [0]) ++
    optional1 ((s.driver k (.fs f)).map (·.val)) ++
    [byteOf (ids8.filter (fun c => (s.channel c).state ≠ .free ∧ (s.channel c).seat = some k ∧
      (s.channel c).trigger = some (.frame f))).length] := by
  have hdue : eOpt 2 (fun t => e16 (Instant.msLeft s.clock t)) (s.frame k f).nextDue = optional2
      ((s.frame k f).nextDue.map (fun t => if Instant.reached s.clock t then 0 else (t.ms - s.now).toNat)) :=
    eOpt_two_eq _ _
  unfold State.frameSlotBytes
  dsimp only
  rw [hdue, carriesByte_eq, eChannel_eq, frameTriggerCount_eq]
  simp only [e8_eq, e16_eq, eFlag_eq, List.append_assoc, List.cons_append, List.nil_append]

/-! ### READ_RESULT (R170) -/

theorem eResultMeas_eq : eResultMeas = fun m : ResultMeas =>
    optional2 (m.value.map (fun v => (BitVec.ofInt 16 v).toNat)) ++ bytes16 m.samples := by
  funext m
  rw [eResultMeas, eOpt_int16, e16_eq]

theorem entryBytes_eq (r : ResultStore) (i : Nat) : r.entryBytes i =
    match r.entries[i]? with
    | none => [0, byteOf r.entries.length] ++ zeros 17
    | some e => [1, byteOf r.entries.length] ++ bytes16 e.stepId.toNat ++
        [byteOf e.outcome.rank, byteOf e.deciding.code] ++ optional1 (e.cause.map Cause.code) ++
        [byteOf e.measurements.length] ++
        e.measurements.flatMap (fun m =>
          optional2 (m.value.map (fun v => (BitVec.ofInt 16 v).toNat)) ++ bytes16 m.samples) ++
        optional1 e.matchCount ++ optional1 (e.answer.map yesNoCode) ++ bytes32 e.start.toNat ++
        bytes16 e.elapsed.toNat := by
  unfold ResultStore.entryBytes
  cases r.entries[i]? with
  | none => rfl
  | some e =>
    dsimp only
    rw [eResult, eList, eResultMeas_eq, eOpt_one_e8, eOpt_one_eq, eOpt_one_eq, e32_eq]
    simp only [eFlag_eq, e8_eq, e16_eq, if_true, List.append_assoc, List.cons_append, List.nil_append]

/-! ### READ_CHANNEL and READ_SLOT (R84, R115) -/

theorem channelBytes_eq (s : State) (c : Fin 8) : s.channelBytes c =
    [byteOf (s.channel c).state.code] ++ optional1 ((s.channel c).seat.map (·.val)) ++
    optional1 ((s.channel c).entry.map (·.val)) ++ optional1 ((s.channel c).target.map Target.code) ++
    (match (s.channel c).trigger with
     | none => [0, 0, 0, 0]
     | some (.timer n) => [1, 0] ++ bytes16 n
     | some (.frame f) => [1, 1] ++ bytes16 f.val
     | some (.chain e) => [1, 2] ++ bytes16 e.val) ++
    optional1 ((s.channel c).program.map (·.val)) ++ bytes16 (s.channel c).address.toNat ++
    bytes16 (s.channel c).remaining ++ optional2 ((s.channel c).shadow.map (·.toNat)) ++
    [if (s.channel c).kept then 1 else 0] ++ optional2 ((s.channel c).nextTimer.map (fun t => msLeft s.now t)) := by
  have htrigger : eOpt 3 eTrigger (s.channel c).trigger = match (s.channel c).trigger with
      | none => [0, 0, 0, 0]
      | some (.timer n) => [1, 0] ++ bytes16 n
      | some (.frame f) => [1, 1] ++ bytes16 f.val
      | some (.chain e) => [1, 2] ++ bytes16 e.val := by
    rcases (s.channel c).trigger with _ | _ | _ | _ <;> rfl
  unfold State.channelBytes
  dsimp only
  rw [htrigger, eOpt_one_eq, eOpt_one_eq, eOpt_one_eq, eOpt_one_eq, eOpt_two_eq, eOpt_two_eq]
  simp only [e8_eq, e16_eq, eFlag_eq]

theorem converterBytes_eq (c : Converter) : c.bytes = match c with
    | .idle => [0, 0, 0]
    | .converting n _ _ _ _ => [1, 1, byteOf n.val] := by cases c <;> rfl

theorem slotBytes_eq (s : State) (m : Fin 6) : s.slotBytes m =
    [byteOf (s.slot m).state.code] ++ optional1 ((s.slot m).seat.map (·.val)) ++
    optional1 ((s.slot m).measurement.map (·.val)) ++ optional1 ((s.slot m).input.map (·.val)) ++
    optional1 ((s.slot m).limit.map (·.val)) ++
    (match (s.slot m).gate with
     | none => [0, 0, 0, 0]
     | some .start => [1, 0, 0, 0]
     | some (.delay d) => [1, 1] ++ bytes16 d
     | some (.mark e) => [1, 2] ++ bytes16 e.val) ++
    optional2 ((s.slot m).gateTime.map (fun t => msLeft s.now t)) ++
    optional2 ((s.slot m).y.map (fun v => (BitVec.ofInt 16 v).toNat)) ++
    [byteOf (s.slot m).run, if (s.slot m).runMarginal then 1 else 0, byteOf (s.slot m).zone.code] ++
    optional2 ((s.slot m).extreme.map (fun v => (BitVec.ofInt 16 v).toNat)) ++ bytes16 (s.slot m).samples ++
    optional2 ((s.slot m).nextDue.map (fun t => msLeft s.now t)) ++ [if (s.slot m).due then 1 else 0] ++
    (match s.converter with
     | .idle => [0, 0, 0]
     | .converting n _ _ _ _ => [1, 1, byteOf n.val]) ++
    [byteOf s.rotation.val] := by
  have hgate : eOpt 3 eGate (s.slot m).gate = match (s.slot m).gate with
      | none => [0, 0, 0, 0]
      | some .start => [1, 0, 0, 0]
      | some (.delay d) => [1, 1] ++ bytes16 d
      | some (.mark e) => [1, 2] ++ bytes16 e.val := by
    rcases (s.slot m).gate with _ | _ | _ | _ <;> rfl
  unfold State.slotBytes
  dsimp only
  rw [hgate, converterBytes_eq, eOpt_one_eq, eOpt_one_eq, eOpt_one_eq, eOpt_one_eq, eOpt_two_eq, eOpt_two_eq,
    eOpt_int16, eOpt_int16]
  simp only [e8_eq, e16_eq, eFlag_eq, List.append_assoc, List.cons_append, List.nil_append]

/-! ### READ_SNAPSHOT, READ_PROGRAM and READ_LIMIT (R47, R182) -/

theorem eSnapshotChannel_eq : eOpt 9 eSnapshotChannel = fun y => match y with
    | none => zeros 10
    | some c => [1, byteOf c.channel.val] ++ bytes16 c.address.toNat ++ bytes16 c.remaining ++
        optional2 (c.shadow.map (·.toNat)) ++ [byteOf c.state.code] := by
  funext y
  cases y with
  | none => rfl
  | some c =>
    change 1 :: eSnapshotChannel c = _
    rw [eSnapshotChannel, eOpt_two_eq]
    simp only [e8_eq, e16_eq, List.append_assoc, List.cons_append, List.nil_append]

theorem eSnapshotMeas_eq : eSnapshotMeas = fun m : SnapshotMeas =>
    optional2 (m.y.map (fun v => (BitVec.ofInt 16 v).toNat)) ++ [byteOf m.run] ++ bytes16 m.samples ++
      [byteOf m.zone.code] := by
  funext m
  rw [eSnapshotMeas, eOpt_int16, e8_eq, e8_eq, e16_eq]

theorem eSnapshot_eq (x : Snapshot) : eSnapshot x =
    [byteOf x.cause.code] ++ bytes16 x.stepId.toNat ++ bytes32 x.time.toNat ++
    [byteOf x.channels.length] ++
    x.channels.flatMap (fun y =>
      match y with
      | none => zeros 10
      | some c => [1, byteOf c.channel.val] ++ bytes16 c.address.toNat ++ bytes16 c.remaining ++
          optional2 (c.shadow.map (·.toNat)) ++ [byteOf c.state.code]) ++
    [byteOf x.measurements.length] ++
    x.measurements.flatMap (fun m =>
      optional2 (m.y.map (fun v => (BitVec.ofInt 16 v).toNat)) ++ [byteOf m.run] ++ bytes16 m.samples ++
        [byteOf m.zone.code]) ++
    optional1 x.matchCount ++ optional1 (x.prompt.map SnapshotPrompt.code) := by
  rw [eSnapshot, eList, eList, eSnapshotChannel_eq, eSnapshotMeas_eq, eOpt_one_e8, eOpt_one_eq, e32_eq]
  simp only [e8_eq, e16_eq, List.append_assoc]

theorem eProgram_eq (x : Program) : eProgram x =
    [if x.direction = .down then 1 else 0, byteOf x.step, byteOf x.wrap] ++ bytes16 x.start.toNat ++
    bytes16 x.count ++ [byteOf x.block, if x.mode = .repeat then 1 else 0] ++ bytes16 x.mark ++
    [if x.markNotice then 1 else 0] := by
  simp only [eProgram, eFlag_eq, e8_eq, e16_eq, decide_eq_true_eq, List.append_assoc, List.cons_append, List.nil_append]

theorem eLimit_eq (x : Limit) : eLimit x =
    [match x.mode with
     | .settle => (0 : Byte)
     | .peakMax => 1
     | .peakMin => 2] ++
    bytes16 (BitVec.ofInt 16 x.low).toNat ++ bytes16 (BitVec.ofInt 16 x.high).toNat ++ bytes16 x.guard ++
    [byteOf x.settle, byteOf x.shift, byteOf x.interval] := by
  have hmode : e8 x.mode.code = [match x.mode with
      | .settle => (0 : Byte)
      | .peakMax => 1
      | .peakMin => 2] := by cases x.mode <;> rfl
  rw [eLimit, hmode]
  simp only [eInt16, e8_eq, e16_eq, List.append_assoc, List.cons_append, List.nil_append]

/-! ### READ_PANEL_STATE (R164) -/

theorem panelSeatBytes_eq (s : State) (k : Fin 4) : s.panelSeatBytes k =
    [byteOf (s.lamp k).mode.code, byteOf (s.effectiveLamp k).code, if (s.prompt k).isOpen then 1 else 0] ++
      optional1 ((s.prompt k).expected.map Expected.code) ++ optional1 (s.prompt k).width := by
  have hopen : e8 (promptCode (s.prompt k)) = [if (s.prompt k).isOpen then 1 else 0] := by
    unfold promptCode
    split <;> rfl
  rw [State.panelSeatBytes, hopen, eOpt_one_e8, eOpt_one_eq]
  simp only [e8_eq, List.cons_append, List.nil_append]

theorem keyBytes_eq (s : State) : s.keyBytes =
    seatIds.flatMap (fun k =>
      [if (s.key (.answer k .yes)).level then 1 else 0, if (s.key (.answer k .no)).level then 1 else 0]) ++
    [if (s.key .stop).level then 1 else 0] := by
  simp only [State.keyBytes, eFlag_eq, List.cons_append, List.nil_append]

theorem cursorBytes_eq (c : Cursor) : c.bytes =
    [byteOf c.page.val, byteOf c.column.val, c.latch, if c.rmw then 1 else 0, byteOf c.saved.val] := by
  simp only [Cursor.bytes, e8_eq, eFlag_eq, List.cons_append, List.nil_append]

/-! ### The reads (R178) -/

/-- A read of one index is answered with the bytes of its record. -/
theorem read_taken (h : s.takes p) {n : Nat} (hn : n ≤ 256) (i : Fin n) (f : Fin n → List Byte) :
    command p s (withArg s (indexArg n [byteOf i.val]) fun i => doneWith s (f i)) = answered s p .ok (f i) := by
  rw [indexArg_byteOf hn, withArg_some]
  exact command_taken_pair h _ _ _

theorem readPair_taken (h : s.takes p) {n m : Nat} (hn : n ≤ 256) (hm : m ≤ 256) (i : Fin n) (j : Fin m)
    (f : Fin n × Fin m → List Byte) :
    command p s (withArg s (indexPairArg n m [byteOf i.val, byteOf j.val]) fun x => doneWith s (f x)) =
      answered s p .ok (f (i, j)) := by
  rw [indexPairArg_byteOf hn hm, withArg_some]
  exact command_taken_pair h _ _ _

/-- A record under a presence byte: zeros of its whole length when it is absent (R180). -/
theorem eOpt_eq {α : Type} (n : Nat) (enc : α → List Byte) (o : Option α) : eOpt n enc o = match o with
    | none => zeros (n + 1)
    | some x => [1] ++ enc x := by cases o <;> rfl

theorem storeField_eq (s : State) : eOpt 4 s.storeBytes s.loader.store = match s.loader.store with
    | none => [0, 0, 0, 0, 0]
    | some x => [1, byteOf x.entry.val, byteOf (portCode x.port)] ++ bytes16 (msLeft s.now x.finish) := by
  cases s.loader.store <;> rfl

/-- Settles O20: each read is taken, and each record is spelled by the lemma of its command. -/
theorem pureReadsChangeNothing : Obligations.PureReadsChangeNothing := by
  refine ⟨fun p s h => ⟨fun k => ⟨read_taken h (by decide) k _, read_taken h (by decide) k _, ?_,
    read_taken h (by decide) k _, read_taken h (by decide) k _, fun f => readPair_taken h (by decide) (by decide) k f _,
    fun i => readPair_taken h (by decide) (by decide) k i _⟩, ?_, fun i => ?_, fun c => read_taken h (by decide) c _,
    fun m => read_taken h (by decide) m _, fun j => ?_, fun i => ?_, ?_⟩,
    fun s k => ⟨seatBytes_eq s k, summaryBytes_eq s k, stepStateBytes_eq s k, outputBytes_eq s k, frameSlotBytes_eq s k,
      entryBytes_eq (s.seat k).results⟩,
    channelBytes_eq, slotBytes_eq, eSnapshot_eq, eProgram_eq, eLimit_eq⟩
  · refine (read_taken h (by decide) k _).trans (congrArg (answered s p .ok) ?_)
    cases (s.record k).snapshot <;> rfl
  · refine (command_taken_pair h _ _ _).trans (congrArg (answered s p .ok) ?_)
    exact List.map_eq_flatMap.symm
  · refine (read_taken h (by decide) i _).trans (congrArg (answered s p .ok) ?_)
    refine congrArg (· ++ _) ?_
    cases (s.program i).program <;> rfl
  · refine (read_taken h (by decide) j _).trans (congrArg (answered s p .ok) ?_)
    exact congrArg (_ ++ ·) (storeField_eq s)
  · refine (read_taken h (by decide) i _).trans (congrArg (answered s p .ok) ?_)
    rw [eOpt_eq]
    unfold boundBytes
    cases (s.limit i).limit <;> rfl
  · refine (command_taken_pair h _ _ _).trans (congrArg (answered s p .ok) ?_)
    rw [funext (panelSeatBytes_eq s), keyBytes_eq, cursorBytes_eq]
    simp only [e8_eq, List.append_assoc, List.cons_append, List.nil_append]

end Steps
end Machine
end Sys2Proof
end

section
/-! A port reset: the port record and its cursor, the seats of the port, the grants (R23, R61, R189). -/

namespace Sys2Proof
namespace Machine
namespace Steps

variable {s t u : State} {k j : Fin 4} {p : Port} {ys : List (Fin 4)}

/-! ### The grants of the port (R61) -/

theorem foldl_dropGrant (p : Port) (rs : List (Fin 32)) (hrs : rs.Nodup) (s : State) : ∃ gs,
    rs.foldl (fun v r => v.setGrant r ((v.grant r).drop p)) s = { s with grants := gs } ∧
    ∀ r : Fin 32, gs[r] = if r ∈ rs then (s.grant r).drop p else s.grant r := by
  induction rs generalizing s with
  | nil => exact ⟨s.grants, rfl, fun r => rfl⟩
  | cons x rs ih =>
    obtain ⟨hx, hrs⟩ := List.nodup_cons.mp hrs
    obtain ⟨gs, hfold, hgs⟩ := ih hrs (s.setGrant x ((s.grant x).drop p))
    refine ⟨gs, hfold, fun r => ?_⟩
    rw [hgs]
    by_cases hr : r = x
    · subst hr
      simp [hx]
    · simp [hr]

theorem dropGrants_eq (s : State) (p : Port) : ∃ gs, s.dropGrants p = { s with grants := gs } ∧
    ∀ r : Fin 32, gs[r] = (s.grant r).drop p := by
  obtain ⟨gs, hfold, hgs⟩ := foldl_dropGrant p regionIds (List.nodup_finRange 32) s
  exact ⟨gs, hfold, fun r => (hgs r).trans (if_pos (List.mem_finRange r))⟩

theorem drop_eq (g : Grant) (p : Port) : g.drop p = match g with
    | .none => .none
    | .a => if p = .a then .none else .a
    | .b => if p = .b then .none else .b
    | .both => if p = .a then .b else .a := by
  cases g <;> cases p <;> rfl

/-! ### One seat of the port (R23) -/

/-- The seat's owner becomes NONE. -/
def dropOwner (s : State) (k : Fin 4) : State := s.setRecord k { s.record k with owner := none }

theorem resetSeat_idle (h : (s.record k).state ≠ .testing) : resetSeat s k = dropOwner s k := if_neg h

theorem resetSeat_testing (h : (s.record k).state = .testing) :
    resetSeat s k = (dropOwner s k).haltSeat k .portReset := if_pos h

theorem dropOwner_record (s : State) (k : Fin 4) : (dropOwner s k).record k = { s.record k with owner := none } := by
  simp [dropOwner]

theorem dropOwner_state (s : State) (k j : Fin 4) : ((dropOwner s k).record j).state = (s.record j).state := by
  by_cases h : j = k
  · rw [h, dropOwner_record]
  · simp [dropOwner, h]

theorem dropOwner_kept (h : j ≠ k) : SeatKept k s (dropOwner s j) := by
  simp [SeatKept, dropOwner, h.symm]

theorem resetSeat_kept (h : j ≠ k) : SeatKept k s (resetSeat s j) := by
  by_cases ht : (s.record j).state = .testing
  · rw [resetSeat_testing ht]
    exact (dropOwner_kept h).trans (haltSeat_kept h .portReset)
  · rw [resetSeat_idle ht]
    exact dropOwner_kept h

theorem haltSeat_waitList_eq (s : State) (k : Fin 4) (c : Cause) :
    (s.haltSeat k c).waitList = s.waitList.filter (· != k) := by
  rw [State.haltSeat, leaveFor_waitList, abortRunning_waitList]

theorem resetSeat_waitList (s : State) (j : Fin 4) : (resetSeat s j).waitList ⊆ s.waitList := by
  by_cases ht : (s.record j).state = .testing
  · rw [resetSeat_testing ht, haltSeat_waitList_eq]
    exact fun _ h => (List.mem_filter.mp h).1
  · rw [resetSeat_idle ht]
    exact fun _ h => h

/-! ### The seats of the port -/

theorem foldl_resetSeat_kept (hk : k ∉ ys) (s : State) : SeatKept k s (ys.foldl resetSeat s) := by
  induction ys generalizing s with
  | nil => exact .refl k s
  | cons y ys ih =>
    obtain ⟨hy, hys⟩ := not_or.mp (mt List.mem_cons.mpr hk)
    exact (resetSeat_kept (Ne.symm hy)).trans (ih hys _)

theorem foldl_resetSeat_waitList (ys : List (Fin 4)) (s : State) : (ys.foldl resetSeat s).waitList ⊆ s.waitList := by
  induction ys generalizing s with
  | nil => exact fun _ h => h
  | cons y ys ih => exact fun _ h => resetSeat_waitList s y (ih _ h)

/-! ### What a reset of seats leaves of the rack -/

/-- The clock, the loader, the memories and the tables, the grants and the cursors. -/
def rackTables (s : State) :=
  (s.clock, s.loader, s.calibration, s.eeprom, s.pattern, s.grants, s.cursor, (fun i => (s.program i).program),
    fun i => (s.limit i).limit)

theorem works_rackTables {T : Fin 4 → Prop} (w : Works T s t) : rackTables t = rackTables s := by
  unfold rackTables
  rw [w.clock, w.loader, w.calibration, w.eeprom, w.pattern, w.grants, funext w.cursor, funext w.programs,
    funext w.limits]

theorem rackTables_now (h : rackTables t = rackTables s) : t.now = s.now :=
  congrArg (fun x => x.1.ms) h

theorem resetSeat_tables (s : State) (k : Fin 4) : rackTables (resetSeat s k) = rackTables s := by
  have hdropped : rackTables (dropOwner s k) = rackTables s := rfl
  by_cases ht : (s.record k).state = .testing
  · rw [resetSeat_testing ht]
    exact (works_rackTables (works_haltSeat (T := fun _ => True) k .portReset trivial)).trans hdropped
  · rw [resetSeat_idle ht]
    exact hdropped

theorem foldl_resetSeat_tables (ys : List (Fin 4)) (s : State) : rackTables (ys.foldl resetSeat s) = rackTables s := by
  induction ys generalizing s with
  | nil => rfl
  | cons y ys ih => exact (ih _).trans (resetSeat_tables s y)

/-- A seat of a list without duplicates is taken once. -/
theorem split_of_mem (hk : k ∈ ys) (hys : ys.Nodup) : ∃ before after, ys = before ++ k :: after ∧ k ∉ before ∧
    k ∉ after ∧ ∀ j ∈ after, j ∉ before := by
  obtain ⟨before, after, rfl⟩ := List.append_of_mem hk
  obtain ⟨-, hafter, hdisjoint⟩ := List.nodup_append.mp hys
  exact ⟨before, after, rfl, fun h => hdisjoint k h k List.mem_cons_self rfl, (List.nodup_cons.mp hafter).1,
    fun j hj hb => hdisjoint j hb j (List.mem_cons_of_mem k hj) rfl⟩

/-! ### Seats outside TESTING only lose their owner -/

/-- The seat records differ, and nothing else. -/
structure RecordsMoved (s t : State) : Prop where
  state : ∃ ss, t = { s with seats := ss }
  seat : ∀ j, { t.seat j with record := (s.seat j).record } = s.seat j

theorem RecordsMoved.refl (s : State) : RecordsMoved s s := ⟨⟨s.seats, rfl⟩, fun _ => rfl⟩

theorem RecordsMoved.trans (h : RecordsMoved s t) (g : RecordsMoved t u) : RecordsMoved s u := by
  obtain ⟨⟨a, rfl⟩, hseat⟩ := h
  obtain ⟨⟨b, rfl⟩, gseat⟩ := g
  exact ⟨⟨b, rfl⟩, fun j => (congrArg (fun x : Seat => { x with record := (s.seat j).record }) (gseat j)).trans (hseat j)⟩

theorem dropOwner_moved (s : State) (k : Fin 4) : RecordsMoved s (dropOwner s k) := by
  refine ⟨⟨_, rfl⟩, fun j => ?_⟩
  by_cases h : j = k
  · simp [dropOwner, State.setRecord, h]
  · simp only [dropOwner, State.setRecord, seat_setSeat_other _ _ _ _ h]

theorem foldl_resetSeat_moved (ys : List (Fin 4)) (hys : ∀ j ∈ ys, (s.record j).state ≠ .testing) :
    RecordsMoved s (ys.foldl resetSeat s) := by
  induction ys generalizing s with
  | nil => exact .refl s
  | cons y ys ih =>
    rw [List.foldl_cons, resetSeat_idle (hys y List.mem_cons_self)]
    exact (dropOwner_moved s y).trans (ih fun j hj => dropOwner_state s y j ▸ hys j (List.mem_cons_of_mem y hj))

/-! ### The whole port reset (R189) -/

/-- The state in which the seats are reset: the port record and the cursor at their reset values. -/
def clearedPort (s : State) (p : Port) (n : Nat) : State := { s.resetPortRecord p with draws := n }

theorem clearedPort_seat (s : State) (p : Port) (n : Nat) (k : Fin 4) : (clearedPort s p n).seat k = s.seat k := by
  cases p <;> rfl

theorem clearedPort_record (s : State) (p : Port) (n : Nat) (k : Fin 4) : (clearedPort s p n).record k = s.record k :=
  congrArg Seat.record (clearedPort_seat s p n k)

theorem clearedPort_waitList (s : State) (p : Port) (n : Nat) : (clearedPort s p n).waitList = s.waitList := by
  cases p <;> rfl

theorem clearedPort_now (s : State) (p : Port) (n : Nat) : (clearedPort s p n).now = s.now := by cases p <;> rfl

theorem clearedPort_kept (s : State) (p : Port) (n : Nat) (k : Fin 4) : SeatKept k s (clearedPort s p n) := by
  simp [SeatKept, clearedPort_seat, clearedPort_record]

theorem portReset_eq (s : State) (p : Port) : ∃ (ys : List (Fin 4)) (n : Nat) (gs : Vector Grant 32), ys.Nodup ∧
    (∀ k, k ∈ ys ↔ (s.record k).owner = some p) ∧
    s.portReset p = { (ys.foldl resetSeat (clearedPort s p n)).arbitrate with grants := gs } ∧
    ∀ r : Fin 32, gs[r] = ((ys.foldl resetSeat (clearedPort s p n)).arbitrate.grant r).drop p := by
  have hseats : (s.resetPortRecord p).seatsOf p = s.seatsOf p := by cases p <;> rfl
  obtain ⟨ys, n, hperm, hopen⟩ := takeInOpenOrder_eq (s.resetPortRecord p) (s.seatsOf p) resetSeat
  obtain ⟨gs, hdrop, hgs⟩ := dropGrants_eq (ys.foldl resetSeat (clearedPort s p n)).arbitrate p
  refine ⟨ys, n, gs, hperm.nodup_iff.mpr (List.Nodup.filter _ (by decide)), fun k => ?_, ?_, hgs⟩
  · rw [hperm.mem_iff, State.seatsOf, List.mem_filter, decide_eq_true_eq]
    exact and_iff_right (mem_seatIds k)
  · rw [State.portReset, hseats, hopen]
    exact hdrop

/-- A seat of the port: it is reset after some seats and before others, and the arbiter leaves it alone (R23). -/
theorem portReset_owned (h : s.StepsLawful) (ho : (s.record k).owner = some p) : ∃ v, SeatKept k s v ∧ v.now = s.now ∧
    SeatKept k (resetSeat v k) (s.portReset p) ∧ k ∉ (s.portReset p).waitList := by
  obtain ⟨ys, n, gs, hnodup, hmem, heq, -⟩ := portReset_eq s p
  obtain ⟨before, after, rfl, hbefore, hafter, -⟩ := split_of_mem ((hmem k).mpr ho) hnodup
  rw [List.foldl_append, List.foldl_cons] at heq
  have hkept := (clearedPort_kept s p n k).trans (foldl_resetSeat_kept hbefore (clearedPort s p n))
  have hwaits := foldl_resetSeat_waitList before (clearedPort s p n)
  have hnow := (rackTables_now (foldl_resetSeat_tables before (clearedPort s p n))).trans (clearedPort_now s p n)
  rw [clearedPort_waitList] at hwaits
  generalize before.foldl resetSeat (clearedPort s p n) = v at heq hkept hwaits hnow
  have hreset := foldl_resetSeat_kept hafter (resetSeat v k)
  have hleft : ((resetSeat v k).record k).state ≠ .testing ∧ k ∉ (resetSeat v k).waitList := by
    by_cases ht : (v.record k).state = .testing
    · rw [resetSeat_testing ht, haltSeat_waitList_eq]
      exact ⟨haltSeat_not_testing _ k _, by simp⟩
    · refine ⟨?_, fun hk => ht ?_⟩
      · rwa [resetSeat_idle ht, dropOwner_state]
      · rw [hkept.1]
        exact h.waits k (hwaits (resetSeat_waitList v k hk))
  have hwait : k ∉ (after.foldl resetSeat (resetSeat v k)).waitList :=
    fun hk => hleft.2 (foldl_resetSeat_waitList after _ hk)
  generalize after.foldl resetSeat (resetSeat v k) = w at heq hreset hwait
  have hstate : (w.record k).state ≠ .testing := by
    rw [hreset.1]
    exact hleft.1
  have hstays : k ∉ w.arbitrate.waitList :=
    not_waiting_of_others (works_sequence_others [.arbiter] (not_considerable_of_state hstate) hwait) hwait
  rw [heq]
  exact ⟨v, hkept, hnow, hreset.trans (arbitrate_kept hstate hwait), hstays⟩

/-! ### The notices of a halted seat (R10, R40) -/

theorem freeChannels_port (cs : List (Fin 8)) (s : State) (q : Port) : (s.freeChannels cs).port q = s.port q := by
  have hone : ∀ (u : State) (c : Fin 8), (u.freeChannel c).port q = u.port q := fun u c => by
    unfold State.freeChannel State.restTarget State.unuseBy State.unuseProgram
    split <;> split <;> cases q <;> rfl
  exact List.foldlRecOn cs _ (motive := fun u => u.port q = s.port q) rfl fun u hu c _ => (hone u c).trans hu

theorem freeSlots_port (ms : List (Fin 6)) (s : State) (q : Port) : (s.freeSlots ms).port q = s.port q := by
  have hone : ∀ (u : State) (m : Fin 6), (u.freeSlot m).port q = u.port q := fun u m => by
    unfold State.freeSlot State.unuseLimit
    split <;> cases q <;> rfl
  exact List.foldlRecOn ms _ (motive := fun u => u.port q = s.port q) rfl fun u hu m _ => (hone u m).trans hu

theorem aborting_port (r : Running) (c : Cause) (q : Port) : (aborting s k r c).port q = s.port q := by
  have hclosed : ∀ u : State, (u.closePrompt k).port q = u.port q := fun u => by
    unfold State.closePrompt State.relamp State.restartLamp
    split <;> cases q <;> rfl
  have hstopped : ∀ u : State, (u.stopExpectation k).port q = u.port q := fun u => by cases q <;> rfl
  rw [aborting, hstopped, hclosed, freeSlots_port, freeChannels_port]
  cases q <;> rfl

theorem leaveTesting_port (s : State) (k : Fin 4) (q : Port) : (s.leaveTesting k).port q = s.port q := by
  have hrest : ∀ u : State, (((u.restOutputs k).unscheduleFrames k).unwait k).port q = u.port q := fun u => by
    obtain ⟨fs, heq, -⟩ := eachFrame_eq (s := u.restOutputs k) (k := k) FrameSlot.unschedule
    rw [State.unscheduleFrames, heq]
    cases q <;> rfl
  rw [State.leaveTesting, hrest, freeSlots_port, freeChannels_port]

/-- The STEP_DONE notice of an aborted step of an unowned seat (R40, R184). -/
theorem abortRunning_port {r : Running} (hr : (s.seat k).running = some r) (ho : (s.record k).owner = none) (c : Cause)
    (q : Port) : (s.abortRunning k c).port q = (s.port q).post
      { kind := .stepDone, level := 0, seat := some k, stepId := some r.step.id, code := 7, count := none,
        time := s.now } := by
  obtain ⟨hrec, -, -, -, hnow⟩ := aborting_seat (s := s) (k := k) r c
  have hport := aborting_port (s := s) (k := k) r c q
  rw [abortRunning_eq hr]
  generalize aborting s k r c = u at *
  have hcleared : ∀ v : State, (v.clearRunning k).port q = v.port q := fun v => by cases q <;> rfl
  have hresults : ∀ x, ((u.setResults k x).record k).owner = none ∧ (u.setResults k x).port q = u.port q ∧
      (u.setResults k x).now = u.now := fun x => 
    ⟨(congrArg SeatRecord.owner (by simp [State.record])).trans ((congrArg SeatRecord.owner hrec).trans ho),
      by cases q <;> rfl, rfl⟩
  obtain ⟨howner, hsame, htime⟩ := hresults ((u.seat k).results.append (u.abortEntry r (s.snapshotOf k r c)))
  rw [hcleared, State.recordResult, postSeat_port, howner, if_neg nofun, hsame, hport, State.notice, htime, hnow]
  rfl

/-- A halted seat that runs a step, unowned: its STEP_DONE, then its SEAT_STATE, to both ports (R10, R23, R184). -/
theorem haltSeat_port {r : Running} (hr : (s.seat k).running = some r) (ho : (s.record k).owner = none) (c : Cause)
    (q : Port) : (s.haltSeat k c).port q =
      ((s.port q).post { kind := .stepDone, level := 0, seat := some k, stepId := some r.step.id, code := 7,
                         count := none, time := s.now }).post
        { kind := .seatState, level := 0, seat := some k, stepId := none, code := 6, count := none, time := s.now } := by
  have hdone := abortRunning_port hr ho c q
  have hnow : ((s.abortRunning k c).leaveTesting k).now = s.now :=
    works_now (Works.trans (T := fun _ => True) (works_abortRunning k c trivial) (works_leaveTesting k))
  have howner : (((s.abortRunning k c).leaveTesting k).record k).owner = none := by
    rw [(leaveTesting_untouched k).1, abortRunning_record hr, ho]
  have hport := leaveTesting_port (s.abortRunning k c) k q
  obtain ⟨-, -, -, hstate, -⟩ :=
    enteringASeatState ((s.abortRunning k c).leaveTesting k) k .hold none none (by decide)
  have hhalt : (s.haltSeat k c).port q = (((s.abortRunning k c).leaveTesting k).enterState k .hold none none).port q := rfl
  rw [hhalt, hstate, howner, if_neg nofun, hport, hdone, hnow]
  rfl

/-! ### One seat of the port in TESTING, or none, and no seat waiting (R23) -/

theorem RecordsMoved.port (h : RecordsMoved s t) (q : Port) : t.port q = s.port q := by
  obtain ⟨⟨ss, rfl⟩, -⟩ := h
  cases q <;> rfl

theorem RecordsMoved.running (h : RecordsMoved s t) (k : Fin 4) : (t.seat k).running = (s.seat k).running := by
  have hsame := congrArg Seat.running (h.seat k)
  exact hsame

/-- A snapshot reads no seat record. -/
theorem RecordsMoved.snapshotOf (h : RecordsMoved s t) (k : Fin 4) (r : Running) (c : Cause) :
    t.snapshotOf k r c = s.snapshotOf k r c := by
  have hcapture : (t.seat k).capture = (s.seat k).capture := by
    have hsame := congrArg Seat.capture (h.seat k)
    exact hsame
  have hcount : t.matchCountNow k = s.matchCountNow k := by
    rw [State.matchCountNow, hcapture, State.matchCountNow]
  obtain ⟨⟨ss, rfl⟩, -⟩ := h
  rw [State.snapshotOf, hcount]
  rfl

theorem clearedPort_port (s : State) (p : Port) (n : Nat) (q : Port) : (clearedPort s p n).port q =
    if q = p then { PortRecord.reset with select := (s.port p).select, resetActive := (s.port p).resetActive }
    else s.port q := by
  cases p <;> cases q <;> rfl

theorem clearedPort_snapshotOf (s : State) (p : Port) (n : Nat) (k : Fin 4) (r : Running) (c : Cause) :
    (clearedPort s p n).snapshotOf k r c = s.snapshotOf k r c := by
  cases p <;> rfl

/-- One seat of the port runs a step in TESTING, the others of it are outside TESTING, and no seat waits: the snapshot
is that of the step as it stood, and its two notices follow one another (R23, R46). -/
theorem portReset_alone {r : Running} (hw : s.waitList = []) (ho : (s.record k).owner = some p)
    (ht : (s.record k).state = .testing) (hr : (s.seat k).running = some r)
    (hothers : ∀ j, j ≠ k → (s.record j).owner = some p → (s.record j).state ≠ .testing) :
    ((s.portReset p).record k).snapshot = some (s.snapshotOf k r .portReset) ∧
    ∀ q, (s.portReset p).port q =
      ((if q = p then { PortRecord.reset with select := (s.port p).select, resetActive := (s.port p).resetActive }
        else s.port q).post { kind := .stepDone, level := 0, seat := some k, stepId := some r.step.id, code := 7,
                              count := none, time := s.now }).post
        { kind := .seatState, level := 0, seat := some k, stepId := none, code := 6, count := none, time := s.now } := by
  obtain ⟨ys, n, gs, hnodup, hmem, heq, -⟩ := portReset_eq s p
  obtain ⟨before, after, rfl, hbefore, hafter, hdisjoint⟩ := split_of_mem ((hmem k).mpr ho) hnodup
  have hidle : ∀ j, j ≠ k → j ∈ before ++ k :: after → (s.record j).state ≠ .testing :=
    fun j hj hin => hothers j hj ((hmem j).mp hin)
  have hempty : ((before ++ k :: after).foldl resetSeat (clearedPort s p n)).waitList = [] :=
    List.subset_nil.mp (hw ▸ clearedPort_waitList s p n ▸ foldl_resetSeat_waitList _ _)
  rw [arbitrate_idle hempty, List.foldl_append, List.foldl_cons] at heq
  have hmoved := foldl_resetSeat_moved (s := clearedPort s p n) before fun j hj => by
    rw [clearedPort_record]
    exact hidle j (fun e => hbefore (e ▸ hj)) (List.mem_append_left _ hj)
  have hkept : ∀ j, j ∉ before → SeatKept j s (before.foldl resetSeat (clearedPort s p n)) :=
    fun j hj => (clearedPort_kept s p n j).trans (foldl_resetSeat_kept hj _)
  generalize before.foldl resetSeat (clearedPort s p n) = v at heq hmoved hkept
  have hdropped := hmoved.trans (dropOwner_moved v k)
  have hrun : ((dropOwner v k).seat k).running = some r := by
    rw [hdropped.running, clearedPort_seat, hr]
  have hnow : (dropOwner v k).now = s.now := by
    obtain ⟨⟨ss, hss⟩, -⟩ := hdropped
    rw [hss]
    exact clearedPort_now s p n
  have hreset : resetSeat v k = (dropOwner v k).haltSeat k .portReset :=
    resetSeat_testing (by rw [(hkept k hbefore).1, ht])
  have hafterIdle : ∀ j ∈ after, ((resetSeat v k).record j).state ≠ .testing := fun j hj => by
    have hjk : j ≠ k := fun e => hafter (e ▸ hj)
    rw [(resetSeat_kept (s := v) hjk.symm).1, (hkept j (hdisjoint j hj)).1]
    exact hidle j hjk (List.mem_append_right _ (List.mem_cons_of_mem k hj))
  have hrest := foldl_resetSeat_moved after hafterIdle
  have hsame := foldl_resetSeat_kept hafter (resetSeat v k)
  generalize after.foldl resetSeat (resetSeat v k) = w at heq hrest hsame
  constructor
  · have hrecord : (s.portReset p).record k = (resetSeat v k).record k := by
      rw [heq]
      exact hsame.1
    rw [hrecord, hreset, (haltSeat_haltedFor (dropOwner v k) k .portReset).record, hrun, ← clearedPort_snapshotOf s p n,
      ← hdropped.snapshotOf]
    rfl
  · intro q
    have hport : (s.portReset p).port q = w.port q := by
      rw [heq]
      cases q <;> rfl
    rw [hport, hrest.port, hreset, haltSeat_port hrun (by rw [dropOwner_record]), hdropped.port, clearedPort_port, hnow]

/-- No seat of the port is in TESTING and none waits: the seat records and the grants move (R23). -/
theorem portReset_quiet (hw : s.waitList = [])
    (hidle : ∀ k, (s.record k).owner = some p → (s.record k).state ≠ .testing) : ∃ n t gs,
    RecordsMoved (clearedPort s p n) t ∧ s.portReset p = { t with grants := gs } ∧
    ∀ k, (s.record k).owner ≠ some p → t.record k = s.record k := by
  obtain ⟨ys, n, gs, -, hmem, heq, -⟩ := portReset_eq s p
  have hempty : (ys.foldl resetSeat (clearedPort s p n)).waitList = [] :=
    List.subset_nil.mp (hw ▸ clearedPort_waitList s p n ▸ foldl_resetSeat_waitList _ _)
  rw [arbitrate_idle hempty] at heq
  refine ⟨n, _, gs, foldl_resetSeat_moved ys fun j hj => ?_, heq, fun k hk => ?_⟩
  · rw [clearedPort_record]
    exact hidle j ((hmem j).mp hj)
  · exact ((clearedPort_kept s p n k).trans (foldl_resetSeat_kept (fun h => hk ((hmem k).mp h)) _)).1

/-! ### The effects together -/

/-- The memories, the tables, the grants and the cursors after a port reset (R61, R189). -/
theorem portReset_tables (s : State) (p : Port) : ∃ n,
    (∀ r, (s.portReset p).grant r = (s.grant r).drop p) ∧
    rackTables { s.portReset p with grants := s.grants } = rackTables (clearedPort s p n) := by
  obtain ⟨ys, n, gs, -, -, heq, hgs⟩ := portReset_eq s p
  have htables : rackTables (ys.foldl resetSeat (clearedPort s p n)).arbitrate = rackTables (clearedPort s p n) :=
    (works_rackTables (works_arbitrate (T := fun _ => True) fun _ _ => trivial)).trans (foldl_resetSeat_tables ys _)
  generalize (ys.foldl resetSeat (clearedPort s p n)).arbitrate = w at *
  have hgrants : w.grants = s.grants := (congrArg (fun x => x.2.2.2.2.2.1) htables).trans (by cases p <;> rfl)
  refine ⟨n, fun r => ?_, ?_⟩
  · have hr := hgs r
    rw [State.grant, hgrants] at hr
    rw [heq]
    exact hr
  · rw [heq, ← htables, ← hgrants]

theorem dropOwner_parts (s : State) (k : Fin 4) : ((dropOwner s k).seat k).queue = (s.seat k).queue ∧
    ((dropOwner s k).seat k).running = (s.seat k).running ∧ ((dropOwner s k).seat k).results = (s.seat k).results ∧
    (dropOwner s k).now = s.now := by
  simp [dropOwner]

/-- A seat of the port outside TESTING only loses its owner (R23). -/
theorem portReset_idle (h : s.StepsLawful) (ho : (s.record k).owner = some p) (ht : (s.record k).state ≠ .testing) :
    (s.portReset p).record k = { s.record k with owner := none } ∧ ((s.portReset p).seat k).queue = (s.seat k).queue := by
  obtain ⟨v, ⟨hrec, hqueue, -⟩, -, hreset, -⟩ := portReset_owned h ho
  rw [resetSeat_idle (hrec ▸ ht)] at hreset
  obtain ⟨greset, gqueue, -⟩ := hreset
  obtain ⟨dqueue, -⟩ := dropOwner_parts v k
  exact ⟨by rw [greset, dropOwner_record, hrec], by rw [gqueue, dqueue, hqueue]⟩

/-- A seat of the port in TESTING goes to HOLD, and its running step is recorded (R23, R44 to R46). -/
structure ResetToHold (k : Fin 4) (s t : State) : Prop where
  record : ∃ x, t.record k = { (s.record k).enter .hold none with owner := none, snapshot := x }
  queue : (t.seat k).queue = (s.seat k).queue
  running : (t.seat k).running = none
  waits : k ∉ t.waitList
  idle : (s.seat k).running = none → (t.seat k).results = (s.seat k).results ∧
    (t.record k).snapshot = (s.record k).snapshot
  snapshot : ∀ r, (s.seat k).running = some r →
    ∃ x, (t.record k).snapshot = some x ∧ x.cause = .portReset ∧ x.stepId = r.step.id ∧ x.time = s.now
  entry : ∀ r, (s.seat k).running = some r →
    ∃ e, (t.seat k).results = (s.seat k).results.append e ∧ AbortEntry s r .portReset e

theorem portReset_testing (h : s.StepsLawful) (ho : (s.record k).owner = some p) (ht : (s.record k).state = .testing) :
    ResetToHold k s (s.portReset p) := by
  obtain ⟨v, ⟨hrec, hqueue, hrun, hres⟩, hnow, hreset, hwait⟩ := portReset_owned h ho
  rw [resetSeat_testing (hrec ▸ ht)] at hreset
  obtain ⟨grecord, gqueue, grunning, gidle, gentry⟩ := (haltSeat_haltedFor (dropOwner v k) k .portReset).kept hreset
  obtain ⟨dqueue, drun, dres, dnow⟩ := dropOwner_parts v k
  rw [dropOwner_record, drun, hrec, hrun] at grecord
  rw [drun, hrun, dres, hres] at gidle
  refine ⟨⟨_, grecord⟩, by rw [gqueue, dqueue, hqueue], grunning, hwait, fun hr => ⟨gidle hr, ?_⟩, fun r hr => ?_,
    fun r hr => ?_⟩
  · rw [grecord, hr]
    rfl
  · rw [grecord, hr]
    exact ⟨_, rfl, rfl, rfl, dnow.trans hnow⟩
  · obtain ⟨e, heq, hid, hout, hdec, hcause, hstart, helapsed⟩ := gentry r (drun.trans (hrun.trans hr))
    rw [dres, hres] at heq
    rw [dnow, hnow] at helapsed
    exact ⟨e, heq, hid, hout, hdec, hcause, hstart, helapsed⟩

theorem portReset_foreign (ho : (s.record k).owner ≠ some p) : ((s.portReset p).record k).owner = (s.record k).owner := by
  obtain ⟨ys, n, gs, -, hmem, heq, -⟩ := portReset_eq s p
  have hkept := (clearedPort_kept s p n k).trans (foldl_resetSeat_kept (fun hk => ho ((hmem k).mp hk)) _)
  have howner := (works_arbitrate (T := fun _ => True) (s := ys.foldl resetSeat (clearedPort s p n))
    fun _ _ => trivial).owner k
  rw [hkept.1] at howner
  rw [heq]
  exact howner

/-- The reset of the port's record, with everything but records and grants as it was (R23, R61, R189). -/
theorem portReset_quiet_rest (hw : s.waitList = [])
    (hidle : ∀ k, (s.record k).owner = some p → (s.record k).state ≠ .testing) :
    (s.portReset p).port p =
      { PortRecord.reset with select := (s.port p).select, resetActive := (s.port p).resetActive } ∧
    (s.portReset p).port (otherPort p) = s.port (otherPort p) ∧
    (∀ k, { (s.portReset p).seat k with record := (s.seat k).record } = s.seat k) ∧
    (∀ k, (s.record k).owner ≠ some p → (s.portReset p).record k = s.record k) ∧
    { (s.portReset p).panel with cursorA := s.panel.cursorA, cursorB := s.panel.cursorB } = s.panel ∧
    { s.portReset p with portA := s.portA, portB := s.portB, seats := s.seats, panel := s.panel, grants := s.grants,
                         draws := s.draws } = s := by
  obtain ⟨n, t, gs, ⟨⟨ss, rfl⟩, hseat⟩, heq, hforeign⟩ := portReset_quiet hw hidle
  rw [heq]
  refine ⟨?_, ?_, fun k => ?_, hforeign, ?_, ?_⟩
  · cases p <;> rfl
  · cases p <;> rfl
  · have hk := hseat k
    rw [clearedPort_seat] at hk
    exact hk
  · cases p <;> rfl
  · cases p <;> rfl

/-- What no port reset touches: the other cursor, the memories and the tables; the port's own cursor starts afresh. -/
theorem portReset_rack (s : State) (p : Port) : (s.portReset p).cursor p = Cursor.reset ∧
    (s.portReset p).cursor (otherPort p) = s.cursor (otherPort p) ∧
    (s.portReset p).pattern = s.pattern ∧ (s.portReset p).loader = s.loader ∧
    (s.portReset p).calibration = s.calibration ∧ (s.portReset p).eeprom = s.eeprom ∧
    (∀ i, ((s.portReset p).program i).program = (s.program i).program) ∧
    ∀ i, ((s.portReset p).limit i).limit = (s.limit i).limit := by
  obtain ⟨n, -, htables⟩ := portReset_tables s p
  have hcleared : rackTables (clearedPort s p n) =
      rackTables { s with panel := ((s.resetPortRecord p).panel) } := by cases p <;> rfl
  have hown : (s.resetPortRecord p).cursor p = Cursor.reset ∧
      (s.resetPortRecord p).cursor (otherPort p) = s.cursor (otherPort p) := by cases p <;> exact ⟨rfl, rfl⟩
  replace htables := htables.trans hcleared
  generalize s.portReset p = t at htables ⊢
  simp only [rackTables, Prod.mk.injEq] at htables
  obtain ⟨-, hloader, hcalibration, heeprom, hpattern, -, hcursor, hprograms, hlimits⟩ := htables
  exact ⟨(congrFun hcursor p).trans hown.1, (congrFun hcursor (otherPort p)).trans hown.2, hpattern, hloader,
    hcalibration, heeprom, congrFun hprograms, congrFun hlimits⟩

/-- Settles O18: a seat of the port is halted between seats of it that are reset before and after, and the arbiter and
the grants after them leave it alone. -/
theorem portResetEffects : Obligations.PortResetEffects := by
  intro p s h
  obtain ⟨-, hgrant, -⟩ := portReset_tables s p
  obtain ⟨hown, hother, hpattern, hloader, hcalibration, heeprom, hprograms, hlimits⟩ := portReset_rack s p
  refine ⟨hown, hother, fun k ho => ?_, fun k ho => portReset_foreign ho, fun r => (hgrant r).trans (drop_eq _ p),
    hpattern, hloader, hcalibration, heeprom, hprograms, hlimits, fun k ho ht => ?_, portReset_quiet_rest⟩
  · by_cases ht : (s.record k).state = .testing
    · obtain ⟨⟨x, hrecord⟩, hqueue, hrunning, -⟩ := portReset_testing h ho ht
      rw [hrecord]
      exact ⟨rfl, hqueue, rfl, fun _ => ⟨rfl, rfl, rfl, hrunning⟩, fun hn => absurd ht hn⟩
    · obtain ⟨hrecord, hqueue⟩ := portReset_idle h ho ht
      rw [hrecord]
      exact ⟨rfl, hqueue, rfl, fun hn => absurd hn ht, fun _ => rfl⟩
  · have hhold := portReset_testing h ho ht
    refine ⟨hhold.waits, hhold.idle, fun r hr => ⟨hhold.snapshot r hr, ?_, fun hw => portReset_alone hw ho ht hr⟩⟩
    obtain ⟨e, heq, hid, hout, hdec, hcause, hstart, helapsed⟩ := hhold.entry r hr
    exact ⟨e, heq, hid, hout, hdec, hcause, hstart, helapsed⟩

end Steps
end Machine
end Sys2Proof
end
